-- ==== Sys2Proof/Word.lean ====
section
/-! DEFINITION. The words of the FP4820's lines and the operand types a command carries. -/

namespace Sys2Proof

/-- One byte of a station line, a field line or the image memory. -/
abbrev Byte := BitVec 8

/-- The four station ports (R183). -/
inductive Port where
  | s0 | s1 | s2 | s3
deriving DecidableEq, Repr

/-- What the serial memory gave the reader in the phases of R18: whether it acknowledged the
addressing of the header (address 0) and of the rest (address 4), and its bytes from byte 0. -/
structure ImageRead where
  headerAck : Bool
  restAck   : Bool
  bytes     : List Byte
deriving DecidableEq, Repr

/-- How a presence byte that is neither 0 nor 1 is read (R184 gives only those two). -/
inductive PresenceReading where
  | absent | present | refused
deriving DecidableEq, Repr, Inhabited

end Sys2Proof
end

