-- ==== Sys2Proof/Config.lean ====
section
/-! DEFINITION. The values the manual leaves open: opaque constants, so that nothing can be proved of
the value itself. -/

namespace Sys2Proof

/-- FREE VALUE (log entry 6). R184 codes an optional field's presence byte 0 absent and 1 present and
says nothing of the other codes. -/
opaque Config.strayPresence : Byte → PresenceReading

/-- FREE VALUE (log entry 7). R18 reports "the index of the failing entry"; a route entry and a ramp
entry name a pair, not one index. Arguments: section, ordinal in the section, the pair's two bytes. -/
opaque Config.pairEntryIndex : Nat → Nat → Nat → Nat → Nat

/-- FREE VALUE (log entry 8). An expiry time is sent in four bytes (R184); R20 holds the count at its
maximum and says nothing of a deadline that lies above it. -/
opaque Config.timeAboveMaximum : Nat → Nat

end Sys2Proof
end

