-- ==== Sys2Proof/Machine/ImageBus.lean ====
section
/-! DEFINITION. What the image reader puts on the I2C bus of the image memory (R18). -/

namespace Sys2Proof.Machine

/-- One sequential read of the image memory: the bus address, the memory address bytes written after it in the order
they are sent, and how many bytes the reader then reads from there. -/
structure BusRead where
  bus     : BitVec 7
  address : List Byte
  count   : Nat
deriving DecidableEq, Repr

/-- The bus address of the image memory (R18). -/
def memoryBusAddress : BitVec 7 := 0b1010000#7

/-- The read of the four header bytes, from address 0 (R18). -/
def headerRead : BusRead := ⟨memoryBusAddress, [0#8, 0#8], 4⟩

/-- The read of the rest of an image of a length, from address 4 (R18). -/
def restRead (length : Nat) : BusRead := ⟨memoryBusAddress, [0#8, 4#8], length - 4⟩

end Sys2Proof.Machine
end

