-- ==== Sys2Proof/Machine/Table.lean ====
section
/-! DEFINITION. Tables indexed from 0 with some places configured, and the four places of a per-port
record. A table is a list of (index, entry) pairs in rising order of index. -/

namespace Sys2Proof.Machine

/-- A site table: its configured places, each with its index, in rising order. -/
abbrev Table (α : Type) := List (Nat × α)

variable {α : Type}

/-- The entry at place `k`, if the place is configured. -/
def Table.look (t : Table α) (k : Nat) : Option α :=
  match t with
  | [] => none
  | (j, v) :: rest => if j = k then some v else Table.look rest k

/-- Configure place `k` with `v`, in place of any entry it has. -/
def Table.put (t : Table α) (k : Nat) (v : α) : Table α :=
  match t with
  | [] => [(k, v)]
  | (j, w) :: rest =>
    if k < j then (k, v) :: (j, w) :: rest
    else if j = k then (k, v) :: rest
    else (j, w) :: Table.put rest k v

/-- Change the entry at place `k`, if there is one. -/
def Table.adjust (t : Table α) (k : Nat) (f : α → α) : Table α :=
  match t with
  | [] => []
  | (j, v) :: rest => if j = k then (j, f v) :: rest else (j, v) :: Table.adjust rest k f

/-- Empty place `k`. -/
def Table.remove (t : Table α) (k : Nat) : Table α :=
  t.filter fun e => e.1 != k

/-- Change every entry. -/
def Table.each (t : Table α) (f : Nat → α → α) : Table α :=
  t.map fun e => (e.1, f e.1 e.2)

/-- Whether place `k` is configured. -/
def Table.has (t : Table α) (k : Nat) : Bool := (t.look k).isSome

/-- The configured places, in rising order. -/
def Table.places (t : Table α) : List Nat := t.map Prod.fst

/-- The canonical form: indexes strictly rising. -/
def Table.rising (t : Table α) : Bool :=
  match t with
  | [] => true
  | (j, _) :: rest => rest.all (fun e => j < e.1) && Table.rising rest

/-- One value for each station port. -/
structure Quad (α : Type) where
  s0 : α
  s1 : α
  s2 : α
  s3 : α
deriving DecidableEq, Repr

/-- The value of port `p`. -/
def Quad.at (q : Quad α) (p : Port) : α :=
  match p with
  | .s0 => q.s0
  | .s1 => q.s1
  | .s2 => q.s2
  | .s3 => q.s3

/-- Change the value of port `p`. -/
def Quad.adjust (q : Quad α) (p : Port) (f : α → α) : Quad α :=
  match p with
  | .s0 => { q with s0 := f q.s0 }
  | .s1 => { q with s1 := f q.s1 }
  | .s2 => { q with s2 := f q.s2 }
  | .s3 => { q with s3 := f q.s3 }

/-- Change every port's value. -/
def Quad.each (q : Quad α) (f : α → α) : Quad α := ⟨f q.s0, f q.s1, f q.s2, f q.s3⟩

/-- The four ports' values, S0 to S3. -/
def Quad.toList (q : Quad α) : List α := [q.s0, q.s1, q.s2, q.s3]

/-- The same value for every port. -/
def Quad.all (a : α) : Quad α := ⟨a, a, a, a⟩

/-- The four ports in order. -/
def allPorts : List Port := [.s0, .s1, .s2, .s3]

end Sys2Proof.Machine
end

