-- ==== Sys2Proof/Syntax.lean ====
section
/-! DEFINITION. The commands of spec/opcode_table.json, one constructor per row. A request row carries
the port and the request's argument fields as they stand on the wire (R184, Table 10-5); an event row
carries what the event brings. -/

namespace Sys2Proof

/-- A command of the FP4820: an event at its pins, lines or timers, or a request on a station port. -/
inductive Instr where
  -- start-up
  | coldReset
  | resetReleased
  | imageReadDone (read : ImageRead)
  -- the timebase and the tests of a second
  | secondEvent
  | minuteClose
  | settleInComplete (bay : Nat)
  | settleOutComplete (bay : Nat)
  | holdExpiry
  | activeDeadline (zone : Nat)
  | standbyDeadline (zone : Nat)
  | sensorGraceExpiry (zone : Nat)
  | overrideLapse
  -- the field segments
  | wakeActiveEnd (seg : Fin 8)
  | wakeEnd (seg : Fin 8)
  | rollCallSent (seg : Fin 8)
  | pollSent (seg : Fin 8)
  | setSent (seg : Fin 8)
  | probeDue (seg : Fin 8)
  | goodPollReply (seg : Fin 8) (frame : List Byte)
  | goodSetReply (seg : Fin 8) (frame : List Byte)
  | validRollCallReply (seg : Fin 8) (frame : List Byte)
  | replyWrongKind (seg : Fin 8) (frame : List Byte)
  | replyBadFrame (seg : Fin 8) (frame : List Byte)
  | replyGap (seg : Fin 8)
  | replyTimeout (seg : Fin 8)
  | hangDetected (seg : Fin 8)
  | hungIdleTest (seg : Fin 8) (idle : Bool)
  | hungNodeLoss (seg : Fin 8)
  -- the sign unit's clock
  | pacingIntervalEnd (sign : Nat)
  -- the station lines
  | stationBadLength (port : Port) (length : BitVec 16)
  | stationGapTimeout (port : Port)
  | discardQuietEnd (port : Port)
  | stationFrameComplete (port : Port) (frame : List Byte)
  | replySent (port : Port)
  -- requests that read
  | readStatus (port : Port)
  | readOptions (port : Port)
  | readZone (port : Port) (zone : Byte)
  | readFreeCounts (port : Port)
  | readBays (port : Port) (zone start : Byte)
  | readHolds (port : Port) (start : Byte)
  | readHoldEnds (port : Port)
  | readShaft (port : Port) (shaft : Byte)
  | readNode (port : Port) (seg address : Byte)
  | readSegment (port : Port) (seg : Byte)
  | readSign (port : Port) (sign : Byte)
  | readDose (port : Port) (zone : Byte)
  -- traffic and guidance
  | entry (port : Port) (point cls : Byte)
  | exit (port : Port) (point cls : Byte)
  | requestBay (port : Port) (point cls kind : Byte)
  | releaseHold (port : Port) (slot : Byte) (bay : BitVec 16)
  -- table edits
  | setSetpoints (port : Port) (pairs : List (Byte × BitVec 16))
  | setZone (port : Port) (zone level shaft : Byte) (baseFlow : BitVec 16)
  | setBay (port : Port) (bay : BitVec 16) (kind outOfUse : Byte)
  | setRoute (port : Port) (point target : Byte) (zones : List Byte)
  | setRamp (port : Port) (pointKind point : Byte) (zones : List Byte)
  | setSign (port : Port) (sign filter : Byte) (zones : List Byte)
  | setRing (port : Port) (shaft : Byte) (zones : List Byte)
  | setLast (port : Port) (zone : Byte)
  | setRotation (port : Port) (shaft mode : Byte)
  -- zone status
  | overrideStage (port : Port) (zone stage : Byte)
  | overrideLight (port : Port) (zone level : Byte)
  | holdOut (port : Port) (zone flag : Byte)
  | closeZone (port : Port) (zone : Byte)
  | openZone (port : Port) (zone : Byte)
  | supply (port : Port) (code : Byte)
  | smoke (port : Port) (level : Byte)
  | smokeClear (port : Port)
  -- administration and notices
  | setRights (port : Port) (named rights : Byte)
  | lockRights (port : Port) (named : Byte)
  | setRouting (port : Port) (named classes : Byte)
  | setNoticeMask (port : Port) (classes : Byte)
  | setAutoAck (port : Port) (code : Byte)
  | restart (port : Port)
  | pollNotice (port : Port)
  | ackNotice (port : Port) (cls : Option Byte)
  -- line moments
  | stationStartByte (port : Port)
  | requesterFrameEnd (seg : Fin 8)
deriving DecidableEq, Repr

end Sys2Proof
end

