-- ==== Sys2Proof/Machine/State.lean ====
section
/-! DEFINITION. The state of the FP4820: every block's records as plain data, the queue of waiting
commands, and the state right after reset. INVENTORY.md names the rule behind each field. -/

namespace Sys2Proof.Machine

/-! ### Table store -/

/-- Part states (Table 1-7). -/
inductive PartState where
  | loading | discovering | run | safe
deriving DecidableEq, Repr

/-- Port roles (R8, R183). -/
inductive Role where
  | supervisor | lane | fire | view
deriving DecidableEq, Repr

/-- Port bit rates (Table 1-2). -/
inductive BitRate where
  | b19200 | b57600 | b115200
deriving DecidableEq, Repr

/-- Override silence timeouts (Table 1-2). -/
inductive SilenceTimeout where
  | s30 | s60 | s120 | s300
deriving DecidableEq, Repr

/-- Node reply timeouts (Table 1-2). -/
inductive ReplyTimeout where
  | ms10 | ms20 | ms40 | ms80
deriving DecidableEq, Repr

/-- The option block (R8); `segments` has bit n for segment n. -/
structure Options where
  roles    : Quad Role
  rate     : BitRate
  silence  : SilenceTimeout
  reply    : ReplyTimeout
  segments : Byte
deriving DecidableEq, Repr

/-- Causes of an image rejection (R18). -/
inductive RejectCause where
  | missing | format | check | content
deriving DecidableEq, Repr

/-- The rejection record (R18). -/
structure Rejection where
  cause : RejectCause
  sect  : Option Nat
  entry : Option Nat
deriving DecidableEq, Repr

/-- A zone's place in the zone table (R1). -/
structure ZoneEntry where
  level    : Nat
  shaft    : Option Nat
  baseFlow : Nat
deriving DecidableEq, Repr

/-- A lamp channel (R4). -/
structure Lamp where
  zone : Nat
  seg  : Nat
  addr : Nat
deriving DecidableEq, Repr

/-! ### Field controller -/

/-- Node kinds (Table 2-3). -/
inductive NodeKind where
  | bay | gas | drive | lamp | sign
deriving DecidableEq, Repr

/-- Node states (Table 2-2). -/
inductive NodeState where
  | expected | present | suspect | lost | mismatch
deriving DecidableEq, Repr

/-- Why a transaction missed (R28). -/
inductive FailureCause where
  | timeout | check | wrongKind
deriving DecidableEq, Repr

/-- What a sign shows (Table 2-4). -/
inductive Display where
  | count (n : Nat)
  | full | closed | blank
deriving DecidableEq, Repr

/-- A detector's value (Table 2-4). -/
inductive RawValue where
  | absent | present | fault
deriving DecidableEq, Repr

/-- A gas channel's status (Table 2-4). -/
inductive GasStatus where
  | ok | warmup | fault
deriving DecidableEq, Repr

/-- A drive's reported state (Table 2-4). -/
inductive DriveState where
  | stopped | running | tripped
deriving DecidableEq, Repr

/-- The decoded payload of a reply (Table 2-4). -/
inductive Payload where
  | nothing
  | bay (slots : List RawValue)
  | gas (value0 : Nat) (status0 : GasStatus) (value1 : Nat) (status1 : GasStatus)
  | drive (accepted : Nat) (state : DriveState) (feedback : Nat)
  | lamp (accepted failed : Nat)
  | sign (shown : Display)
deriving DecidableEq, Repr

/-- A value commanded of a node or confirmed by it (R25). -/
inductive Setting where
  | percent (n : Nat)
  | display (d : Display)
deriving DecidableEq, Repr

/-- A node record (R25). `commanded` is absent for BAY and GAS nodes; an absent `confirmed` is UNKNOWN. -/
structure Node where
  kind      : NodeKind
  state     : NodeState
  misses    : Nat
  cause     : Option FailureCause
  commanded : Option Setting
  confirmed : Option Setting
  lastReply : Option Payload
deriving DecidableEq, Repr

/-- The engine's three functions (Table 2-3). -/
inductive FieldFunction where
  | rollCall | poll | set
deriving DecidableEq, Repr

/-- The transaction in flight: the function, the node addressed, whether it is a recovery probe (R38),
and the requester frame's bytes (R27). -/
structure Transaction where
  func  : FieldFunction
  addr  : Nat
  probe : Bool
  frame : List Byte
deriving DecidableEq, Repr

/-- What the engine is doing on its line (R24, R28, R32). Its driver is enabled in the two phases of a
wake and while a frame is being sent. -/
inductive EnginePhase where
  | quiet
  | wakeActive
  | wakeIdle
  | sending (tx : Transaction)
  | awaiting (tx : Transaction)
deriving DecidableEq, Repr

/-- What a roll call resolved for an address and holds back in RECOVERING (R33, R42, R46). -/
structure Resolved where
  kind   : NodeKind
  state  : NodeState
  misses : Nat
  cause  : Option FailureCause
deriving DecidableEq, Repr

/-- A roll call in progress (R33): the address at hand, the attempts it has had, the threshold held
when its first attempt began, and the results held back. -/
structure RollCall where
  addr      : Nat
  attempts  : Nat
  threshold : Option Nat
  results   : Table Resolved
deriving DecidableEq, Repr

/-- Segment states (Table 2-1). -/
inductive SegState where
  | off | discovering | running | hung | recovering
deriving DecidableEq, Repr

/-- One segment and its engine (R24, R25, R32 to R46). -/
structure Segment where
  state      : SegState
  phase      : EnginePhase
  rollCall   : Option RollCall
  lastServed : Nat
  probePtr   : Nat
  probeDue   : Bool
  left       : Bool
  strays     : Nat
  hangs      : Nat
  nodes      : Table Node
deriving DecidableEq, Repr

/-! ### Bay table -/

/-- Bay kinds (R5). -/
inductive BayKind where
  | standard | wide | charger | accessible
deriving DecidableEq, Repr

/-- Occupancy states (Table 3-1). -/
inductive Occupancy where
  | unknown | free | settlingIn | occupied | settlingOut
deriving DecidableEq, Repr

/-- A bay record (Table 3-1). -/
structure Bay where
  zone     : Nat
  kind     : BayKind
  seg      : Nat
  addr     : Nat
  slot     : Nat
  outOfUse : Bool
  occ      : Occupancy
  raw      : Option RawValue
  deadline : Option Nat
  hold     : Option Nat
  glitches : Nat
deriving DecidableEq, Repr

/-- A zone's four free counts (R62). -/
structure FreeCounts where
  standard   : Nat
  wide       : Nat
  charger    : Nat
  accessible : Nat
deriving DecidableEq, Repr

/-! ### Air unit -/

/-- The two gases (R4). -/
inductive Gas where
  | co | no2
deriving DecidableEq, Repr

/-- A gas channel: its entry of the site table (R4) and its record (Table 4-1). -/
structure GasChannel where
  gas     : Gas
  zone    : Nat
  seg     : Nat
  addr    : Nat
  chan    : Nat
  reading : Option Nat
  status  : Option GasStatus
deriving DecidableEq, Repr

/-- A zone air record (Table 4-2). `graceDue` is the model's own mark that the last second event found
the loss timer at the sensor grace (R83, log entry 2). -/
structure AirZone where
  index     : Nat
  smooth    : Nat
  credit    : Nat
  demand    : Nat
  binSum    : Nat
  binCount  : Nat
  ring      : List (Option Nat)
  writePos  : Nat
  a15       : Option Nat
  peak      : Bool
  dose      : Bool
  loss      : Bool
  lossStart : Option Nat
  graceDue  : Bool
deriving DecidableEq, Repr

/-! ### Ventilation unit -/

/-- What a drive serves (R3). -/
inductive DriveDuty where
  | shaft (shaft rated : Nat)
  | jet (zone : Nat)
deriving DecidableEq, Repr

/-- A drive's availability (Table 5-2). -/
inductive Availability where
  | waiting | available | unavailable
deriving DecidableEq, Repr

/-- A drive: its entry of the site table (R3) and its record (Table 5-2). -/
structure Drive where
  duty     : DriveDuty
  seg      : Nat
  addr     : Nat
  avail    : Availability
  reported : Option DriveState
deriving DecidableEq, Repr

/-- A zone ventilation record (Table 5-1); an absent `alloc` is NONE. -/
structure VentZone where
  computed  : Nat
  dwell     : Nat
  alarmMin  : Nat
  wanted    : Nat
  want      : Nat
  floor     : Nat
  alloc     : Option Nat
  effective : Nat
  jetFault  : Bool
deriving DecidableEq, Repr

/-- Rotation modes (R2). -/
inductive RotationMode where
  | fixed | rotating
deriving DecidableEq, Repr

/-- A shaft record (Table 5-3). -/
structure Shaft where
  mode     : RotationMode
  ring     : List Nat
  taken    : List Nat
  rating   : Nat
  capacity : Nat
  flow     : Nat
  speed    : Nat
deriving DecidableEq, Repr

/-! ### Zone status unit -/

/-- A closure set (R119). -/
structure Closure where
  supervisor : Bool
  air        : Bool
  smoke      : Bool
deriving DecidableEq, Repr

/-- A zone's closure set and override record (Table 6-1). -/
structure ZoneStatus where
  closure     : Closure
  forcedStage : Option Nat
  forcedLight : Option Nat
  holdOut     : Bool
deriving DecidableEq, Repr

/-- The site supply state (R129). -/
inductive Supply where
  | normal | restricted
deriving DecidableEq, Repr

/-- The lapse state (R127). -/
inductive Lapse where
  | watching | lapsed
deriving DecidableEq, Repr

/-! ### Guidance unit -/

/-- Vehicle classes (R74). -/
inductive VehicleClass where
  | petrol | diesel | electric | unknown
deriving DecidableEq, Repr

/-- A live hold's record (Table 7-1). -/
structure Hold where
  bay     : Nat
  zone    : Nat
  entry   : Nat
  cls     : VehicleClass
  port    : Port
  created : Nat
  expiry  : Nat
  route   : List Nat
deriving DecidableEq, Repr

/-- Hold end causes (Table 7-4). -/
inductive EndCause where
  | fulfilled | expired | released | airClosed | supervisorClosed | smoke | bayLost | outOfUse
deriving DecidableEq, Repr

/-- An entry of a hold end list (R150). -/
structure EndEntry where
  slot  : Nat
  bay   : Nat
  zone  : Nat
  cause : EndCause
  age   : Nat
deriving DecidableEq, Repr

/-- A port's hold end list, oldest entry first, with its overflow flag (R157). -/
structure EndList where
  entries  : List EndEntry
  overflow : Bool
deriving DecidableEq, Repr

/-! ### Sign and lighting units -/

/-- Sign filters (R163). -/
inductive SignFilter where
  | general | wide | charger | accessible
deriving DecidableEq, Repr

/-- The pacing gate (R166). The moment an interval ends is on the sign unit's own clock (log entry 3). -/
inductive Pacing where
  | opened | pacing
deriving DecidableEq, Repr

/-- A sign record (Table 8-1); an absent `shown` is UNKNOWN. -/
structure Sign where
  seg      : Nat
  addr     : Nat
  filter   : SignFilter
  zones    : List Nat
  target   : Display
  pacing   : Pacing
  lastSent : Option Display
  lastSend : Option Nat
  shown    : Option Display
deriving DecidableEq, Repr

/-- Light states (R173 to R175). -/
inductive LightState where
  | floor | standby | active
deriving DecidableEq, Repr

/-- The lines of Table 9-2. -/
inductive LightLine where
  | smoke | forced | air | escort | active | standby | floor
deriving DecidableEq, Repr

/-- A zone lighting record (Table 9-1); `capped` says whether R177's cap was applied. -/
structure LightZone where
  state    : LightState
  deadline : Option Nat
  escorts  : Nat
  level    : Nat
  line     : LightLine
  capped   : Bool
  failed   : Option Nat
deriving DecidableEq, Repr

/-! ### Port unit and notice unit -/

/-- A rights set (R189, Table 10-2). -/
structure Rights where
  read     : Bool
  lane     : Bool
  config   : Bool
  override : Bool
  fire     : Bool
  admin    : Bool
deriving DecidableEq, Repr

/-- Receive states (R185). -/
inductive RxState where
  | idle | receiving | discarding
deriving DecidableEq, Repr

/-- A reply being sent: its frame and the bit rate it leaves at (R188, R19). -/
structure Sending where
  frame : List Byte
  rate  : BitRate
deriving DecidableEq, Repr

/-- A port record (Table 10-1); an absent `tx` is a transmitter that is IDLE. -/
structure PortRecord where
  role        : Option Role
  rights      : Rights
  locked      : Bool
  rx          : RxState
  tx          : Option Sending
  errors      : Nat
  overruns    : Nat
  lastRequest : Nat
deriving DecidableEq, Repr

/-- A per-port notice record (Table 11-2) with the attention line (R199). Bit n of a set is the class
of priority n. -/
structure NoticeRecord where
  routing  : Byte
  pending  : Byte
  taken    : Byte
  mask     : Byte
  autoAck  : Bool
  baseline : Option (Table Nat)
  line     : Bool
deriving DecidableEq, Repr

/-! ### The whole part -/

/-- The state of the FP4820. -/
structure State where
  /-- the waiting commands, first in first out (the model's own) -/
  pending    : List Instr
  /-- the RESET pin is held low (R21) -/
  resetLow   : Bool
  part       : PartState
  restarts   : Nat
  rejection  : Option Rejection
  /-- what the image reader has put on the I2C bus in this image read, oldest first (R18, log entry 35) -/
  imageBus   : List BusRead
  timebase   : Nat
  /-- a minute close has been issued and not yet taken (R20, log entry 2) -/
  minuteDue  : Bool
  /-- the bit rate in force on the four station ports (R183) -/
  rate       : BitRate
  options    : Option Options
  levelCount : Nat
  setpoints  : List Nat
  zones      : Table ZoneEntry
  lamps      : Table Lamp
  /-- routes, entry point e and target z at place 64 e + z (R6) -/
  routes     : Table (List Nat)
  entryRamps : Table (List Nat)
  exitRamps  : Table (List Nat)
  segs       : Table Segment
  bays       : Table Bay
  free       : Table FreeCounts
  gas        : Table GasChannel
  air        : Table AirZone
  drives     : Table Drive
  vent       : Table VentZone
  shafts     : Table Shaft
  status     : Table ZoneStatus
  supply     : Supply
  /-- the smoke mode record: standing with its fire level, or not standing (R130) -/
  smoke      : Option Nat
  lapse      : Lapse
  /-- the port unit's last report of the lapse condition (R127, R193) -/
  lapseHolds : Bool
  /-- the hold table: live holds by slot (R138) -/
  holds      : Table Hold
  holdPtr    : Nat
  escorts    : Table Nat
  ends       : Quad EndList
  signs      : Table Sign
  lights     : Table LightZone
  ports      : Quad PortRecord
  notices    : Quad NoticeRecord
deriving DecidableEq, Repr

/-- The reasons a step stops with a fault. Every command of this block has an effect in every state
(where its condition does not hold, it leaves the state as it is: log entry 1), so no meaning raises
one; the type has no constructor. -/
inductive Fault where
deriving DecidableEq, Repr

/-- The reasons a step is refused. -/
inductive Refusal where
  /-- Raised by exec alone, for a command that has no meaning yet. Safe: the run stops. No arm raises it. -/
  | notModelled (mnemonic : String)
deriving DecidableEq, Repr

/-- No right at all: the set in force before the tables are installed (R183). -/
def Rights.none : Rights := ⟨false, false, false, false, false, false⟩

/-- A segment whose engine is stopped (R44), with no node record. R44 gives OFF to a segment not in use once the image is
accepted; that a segment is OFF before then is log entry 17's choice. -/
def Segment.stopped : Segment :=
  { state := .off, phase := .quiet, rollCall := none, lastServed := 0, probePtr := 0, probeDue := false,
    left := false, strays := 0, hangs := 0, nodes := [] }

/-- A port after a cold reset (R196). -/
def PortRecord.cold : PortRecord :=
  { role := none, rights := Rights.none, locked := false, rx := .idle, tx := none, errors := 0,
    overruns := 0, lastRequest := 0 }

/-- The notice unit holds no port records before the installation (R203): no class is routed. -/
def NoticeRecord.absent : NoticeRecord :=
  { routing := 0, pending := 0, taken := 0, mask := 0, autoAck := false, baseline := none, line := false }

/-- The eight segments, stopped. -/
def stoppedSegments : Table Segment :=
  [(0, .stopped), (1, .stopped), (2, .stopped), (3, .stopped), (4, .stopped), (5, .stopped), (6, .stopped),
   (7, .stopped)]

/-- The part right after a cold reset, the RESET pin high: in LOADING with every block at its
cold-reset value and the image read begun from byte 0 (R19, R21; log entry 4). -/
def State.reset : State :=
  { pending := [], resetLow := false, part := .loading, restarts := 0, rejection := none, imageBus := [headerRead],
    timebase := 0, minuteDue := false, rate := .b19200, options := none, levelCount := 0, setpoints := [], zones := [],
    lamps := [], routes := [], entryRamps := [], exitRamps := [], segs := stoppedSegments, bays := [],
    free := [], gas := [], air := [], drives := [], vent := [], shafts := [], status := [],
    supply := .normal, smoke := none, lapse := .watching, lapseHolds := false, holds := [], holdPtr := 63,
    escorts := [], ends := .all ⟨[], false⟩, signs := [], lights := [], ports := .all .cold,
    notices := .all .absent }

end Sys2Proof.Machine
end

