-- ==== Sys2Proof/Machine/Operands.lean ====
section
/-! DEFINITION. The coding of operands and fields: check sums, the codes of Table 10-6, R17 and Table
2-4 in both directions, and the field widths of R184. -/

namespace Sys2Proof.Machine

/-! ### Bytes -/

/-- The sum of a list of bytes, modulo 256 (R27, Table 10-2). -/
def sumBytes (bs : List Byte) : Byte := bs.foldl (· + ·) 0

/-- The sum of a list of bytes as a number (Table 1-5 takes it modulo 65,536). -/
def sumNat (bs : List Byte) : Nat := bs.foldl (fun n b => n + b.toNat) 0

/-- A one-byte field. -/
def u8 (n : Nat) : List Byte := [BitVec.ofNat 8 n]

/-- A two-byte field, most significant byte first (R184). -/
def u16 (n : Nat) : List Byte := [BitVec.ofNat 8 (n / 256), BitVec.ofNat 8 n]

/-- A four-byte field, most significant byte first (R184). -/
def u32 (n : Nat) : List Byte :=
  [BitVec.ofNat 8 (n / 16777216), BitVec.ofNat 8 (n / 65536), BitVec.ofNat 8 (n / 256), BitVec.ofNat 8 n]

/-- The number in two bytes, most significant byte first. -/
def word16 (hi lo : Byte) : Nat := hi.toNat * 256 + lo.toNat

/-- A timebase value in four bytes; the coding of one above the count's maximum is open (log entry 8). -/
def timeField (n : Nat) : List Byte :=
  u32 (if n < 4294967296 then n else Config.timeAboveMaximum n)

/-- A flag or switch (Table 10-6). -/
def flagField (b : Bool) : List Byte := u8 (if b then 1 else 0)

/-- An optional field: a presence byte, and the field when present (R184). -/
def optional {α : Type} (o : Option α) (f : α → List Byte) : List Byte :=
  match o with
  | none => u8 0
  | some a => u8 1 ++ f a

/-- A one-byte figure or a word that takes the code 255 (R184). -/
def word8 (o : Option Nat) : List Byte := u8 (o.getD 255)

/-- A two-byte figure or a word that takes the code 65,535 (R184). -/
def wordOr16 (o : Option Nat) : List Byte := u16 (o.getD 65535)

/-- A list: a count byte and the items (R184). -/
def listField {α : Type} (items : List α) (f : α → List Byte) : List Byte :=
  u8 items.length ++ items.flatMap f

/-- A list of zones (R184). -/
def zoneListField (zs : List Nat) : List Byte := listField zs u8

/-- The zone numbers of a list of bytes. -/
def zoneNumbers (bs : List Byte) : List Nat := bs.map BitVec.toNat

/-! ### Codes of enumerated values -/

def PartState.code : PartState → Nat
  | .loading => 0 | .discovering => 1 | .run => 2 | .safe => 3

def Role.code : Role → Nat
  | .supervisor => 0 | .lane => 1 | .fire => 2 | .view => 3

def Role.ofCode (n : Nat) : Option Role :=
  match n with
  | 0 => some .supervisor | 1 => some .lane | 2 => some .fire | 3 => some .view | _ => none

def BitRate.code : BitRate → Nat
  | .b19200 => 0 | .b57600 => 1 | .b115200 => 2

def BitRate.ofCode (n : Nat) : Option BitRate :=
  match n with
  | 0 => some .b19200 | 1 => some .b57600 | 2 => some .b115200 | _ => none

def SilenceTimeout.code : SilenceTimeout → Nat
  | .s30 => 0 | .s60 => 1 | .s120 => 2 | .s300 => 3

def SilenceTimeout.ofCode (n : Nat) : Option SilenceTimeout :=
  match n with
  | 0 => some .s30 | 1 => some .s60 | 2 => some .s120 | 3 => some .s300 | _ => none

/-- The timeout in seconds (Table 1-2). -/
def SilenceTimeout.seconds : SilenceTimeout → Nat
  | .s30 => 30 | .s60 => 60 | .s120 => 120 | .s300 => 300

def ReplyTimeout.code : ReplyTimeout → Nat
  | .ms10 => 0 | .ms20 => 1 | .ms40 => 2 | .ms80 => 3

def ReplyTimeout.ofCode (n : Nat) : Option ReplyTimeout :=
  match n with
  | 0 => some .ms10 | 1 => some .ms20 | 2 => some .ms40 | 3 => some .ms80 | _ => none

def RejectCause.code : RejectCause → Nat
  | .missing => 0 | .format => 1 | .check => 2 | .content => 3

def Supply.code : Supply → Nat
  | .normal => 0 | .restricted => 1

def Supply.ofCode (n : Nat) : Option Supply :=
  match n with
  | 0 => some .normal | 1 => some .restricted | _ => none

def Lapse.code : Lapse → Nat
  | .watching => 0 | .lapsed => 1

/-- A flag or switch code: 0 clear or off, 1 set or on. -/
def flagOfCode (n : Nat) : Option Bool :=
  match n with
  | 0 => some false | 1 => some true | _ => none

def BayKind.code : BayKind → Nat
  | .standard => 0 | .wide => 1 | .charger => 2 | .accessible => 3

def BayKind.ofCode (n : Nat) : Option BayKind :=
  match n with
  | 0 => some .standard | 1 => some .wide | 2 => some .charger | 3 => some .accessible | _ => none

/-- A wanted kind: `some none` is ANY. -/
def wantedKindOfCode (n : Nat) : Option (Option BayKind) :=
  match n with
  | 0 => some none | 1 => some (some .standard) | 2 => some (some .wide) | 3 => some (some .charger)
  | 4 => some (some .accessible) | _ => none

def VehicleClass.code : VehicleClass → Nat
  | .petrol => 0 | .diesel => 1 | .electric => 2 | .unknown => 3

def VehicleClass.ofCode (n : Nat) : Option VehicleClass :=
  match n with
  | 0 => some .petrol | 1 => some .diesel | 2 => some .electric | 3 => some .unknown | _ => none

def SignFilter.code : SignFilter → Nat
  | .general => 0 | .wide => 1 | .charger => 2 | .accessible => 3

def SignFilter.ofCode (n : Nat) : Option SignFilter :=
  match n with
  | 0 => some .general | 1 => some .wide | 2 => some .charger | 3 => some .accessible | _ => none

def RotationMode.code : RotationMode → Nat
  | .fixed => 0 | .rotating => 1

def RotationMode.ofCode (n : Nat) : Option RotationMode :=
  match n with
  | 0 => some .fixed | 1 => some .rotating | _ => none

def EndCause.code : EndCause → Nat
  | .fulfilled => 0 | .expired => 1 | .released => 2 | .airClosed => 3 | .supervisorClosed => 4
  | .smoke => 5 | .bayLost => 6 | .outOfUse => 7

def Occupancy.code : Occupancy → Nat
  | .unknown => 0 | .free => 1 | .settlingIn => 2 | .occupied => 3 | .settlingOut => 4

def RawValue.code : RawValue → Nat
  | .absent => 0 | .present => 1 | .fault => 2

def RawValue.ofCode (n : Nat) : Option RawValue :=
  match n with
  | 0 => some .absent | 1 => some .present | 2 => some .fault | _ => none

def Gas.code : Gas → Nat
  | .co => 0 | .no2 => 1

def Gas.ofCode (n : Nat) : Option Gas :=
  match n with
  | 0 => some .co | 1 => some .no2 | _ => none

def GasStatus.code : GasStatus → Nat
  | .ok => 0 | .warmup => 1 | .fault => 2

def GasStatus.ofCode (n : Nat) : Option GasStatus :=
  match n with
  | 0 => some .ok | 1 => some .warmup | 2 => some .fault | _ => none

def Availability.code : Availability → Nat
  | .waiting => 0 | .available => 1 | .unavailable => 2

def DriveState.code : DriveState → Nat
  | .stopped => 0 | .running => 1 | .tripped => 2

def DriveState.ofCode (n : Nat) : Option DriveState :=
  match n with
  | 0 => some .stopped | 1 => some .running | 2 => some .tripped | _ => none

def SegState.code : SegState → Nat
  | .off => 0 | .discovering => 1 | .running => 2 | .hung => 3 | .recovering => 4

def NodeState.code : NodeState → Nat
  | .expected => 0 | .present => 1 | .suspect => 2 | .lost => 3 | .mismatch => 4

/-- Node kinds on the field line (Table 2-3) and on the station line, where 0 is NONE. -/
def NodeKind.code : NodeKind → Nat
  | .bay => 1 | .gas => 2 | .drive => 3 | .lamp => 4 | .sign => 5

def NodeKind.ofCode (n : Nat) : Option NodeKind :=
  match n with
  | 1 => some .bay | 2 => some .gas | 3 => some .drive | 4 => some .lamp | 5 => some .sign | _ => none

def FailureCause.code : FailureCause → Nat
  | .timeout => 0 | .check => 1 | .wrongKind => 2

def LightState.code : LightState → Nat
  | .floor => 0 | .standby => 1 | .active => 2

def LightLine.code : LightLine → Nat
  | .smoke => 0 | .forced => 1 | .air => 2 | .escort => 3 | .active => 4 | .standby => 5 | .floor => 6

def Pacing.code : Pacing → Nat
  | .opened => 0 | .pacing => 1

def FieldFunction.code : FieldFunction → Nat
  | .rollCall => 1 | .poll => 2 | .set => 3

/-- A display (Table 2-4): 0–999 count, 1000 FULL, 1001 CLOSED, 1002 BLANK. -/
def Display.code : Display → Nat
  | .count n => n
  | .full => 1000
  | .closed => 1001
  | .blank => 1002

def Display.ofCode (n : Nat) : Option Display :=
  if n < 1000 then some (.count n)
  else match n with
    | 1000 => some .full | 1001 => some .closed | 1002 => some .blank | _ => none

/-- A commanded or confirmed value on the line: one byte for a percentage, two for a display (R184). -/
def Setting.bytes : Setting → List Byte
  | .percent n => u8 n
  | .display d => u16 d.code

/-- A closure set (R184). -/
def Closure.byte (c : Closure) : Byte :=
  BitVec.ofNat 8 ((if c.supervisor then 1 else 0) + (if c.air then 2 else 0) + (if c.smoke then 4 else 0))

/-- A rights set (Table 10-2). -/
def Rights.byte (r : Rights) : Byte :=
  BitVec.ofNat 8 ((if r.read then 1 else 0) + (if r.lane then 2 else 0) + (if r.config then 4 else 0)
    + (if r.override then 8 else 0) + (if r.fire then 16 else 0) + (if r.admin then 32 else 0))

/-- The rights set a rights byte names. -/
def Rights.ofByte (b : Byte) : Rights :=
  ⟨b.getLsbD 0, b.getLsbD 1, b.getLsbD 2, b.getLsbD 3, b.getLsbD 4, b.getLsbD 5⟩

/-- A port's number on the line. -/
def portNumber : Port → Nat
  | .s0 => 0 | .s1 => 1 | .s2 => 2 | .s3 => 3

/-- The port a number names. -/
def portOfNumber (n : Nat) : Option Port :=
  match n with
  | 0 => some .s0 | 1 => some .s1 | 2 => some .s2 | 3 => some .s3 | _ => none

/-! ### Field frames and payloads -/

/-- A requester frame of Table 2-3. -/
def requesterFrame (addr : Nat) (f : FieldFunction) (payload : List Byte) : List Byte :=
  let body := u8 addr ++ u8 f.code ++ payload
  body ++ [sumBytes body]

/-- The length of a reply's payload after the kind byte (Table 2-4). -/
def payloadLength (f : FieldFunction) (k : NodeKind) : Nat :=
  match f, k with
  | .poll, .bay => 16
  | .poll, .gas => 6
  | .set, .drive => 3
  | .set, .lamp => 2
  | .set, .sign => 2
  | _, _ => 0

/-- Every item's image, if every item has one. -/
def allSome {α β : Type} (f : α → Option β) : List α → Option (List β)
  | [] => some []
  | a :: rest =>
    match f a, allSome f rest with
    | some b, some bs => some (b :: bs)
    | _, _ => none

/-- A percentage on the line: 0 to 100. Table 2-4 gives speed feedback that range and the accepted speed and the accepted
level of a SET reply none: the model reads them so too (DESIGN CHOICE, log entry 40). -/
def percentOf (b : Byte) : Option Nat := if b.toNat ≤ 100 then some b.toNat else none

/-- A reply's payload decoded as Table 2-4 names its fields, if its codes all lie within the table. An accepted speed or
level above 100 counts as a code outside it (log entry 40). -/
def readPayload (f : FieldFunction) (k : NodeKind) (bs : List Byte) : Option Payload :=
  match f, k, bs with
  | .poll, .bay, _ =>
    match allSome (fun b => RawValue.ofCode b.toNat) bs with
    | some slots => some (.bay slots)
    | none => none
  | .poll, .gas, [a, b, c, d, e, g] =>
    match GasStatus.ofCode c.toNat, GasStatus.ofCode g.toNat with
    | some s0, some s1 => some (.gas (word16 a b) s0 (word16 d e) s1)
    | _, _ => none
  | .set, .drive, [a, st, fb] =>
    match percentOf a, DriveState.ofCode st.toNat, percentOf fb with
    | some v, some d, some w => some (.drive v d w)
    | _, _, _ => none
  | .set, .lamp, [a, n] =>
    match percentOf a with
    | some v => some (.lamp v n.toNat)
    | none => none
  | .set, .sign, [a, b] =>
    match Display.ofCode (word16 a b) with
    | some d => some (.sign d)
    | none => none
  | _, _, [] => some .nothing
  | _, _, _ => none

/-- A payload's bytes on the line (Table 2-4), as READ NODE also sends it (R48). That READ NODE sends the sixteen
slots with no count byte is the model's choice (log entry 30). -/
def Payload.bytes : Payload → List Byte
  | .nothing => []
  | .bay slots => slots.flatMap fun v => u8 v.code
  | .gas v0 s0 v1 s1 => u16 v0 ++ u8 s0.code ++ u16 v1 ++ u8 s1.code
  | .drive v d w => u8 v ++ u8 d.code ++ u8 w
  | .lamp v n => u8 v ++ u8 n
  | .sign d => u16 d.code

/-- What the bytes of a reply amount to (R28). -/
inductive ReplyVerdict where
  /-- a whole frame meeting every condition of a good reply but the kind check, with the kind it names -/
  | whole (kind : NodeKind) (payload : Payload)
  /-- bytes that end the transaction as a miss with cause CHECK -/
  | bad
  /-- bytes that are not a whole frame -/
  | unfinished
deriving DecidableEq, Repr

/-- Judge a reply to function `f` sent to address `addr` (R27, R28). Its length is that of function `f` and the kind it
names, whatever its function byte (DESIGN CHOICE, log entry 38). -/
def readReply (addr : Nat) (f : FieldFunction) (frame : List Byte) : ReplyVerdict :=
  match frame with
  | a :: fn :: kb :: rest =>
    match NodeKind.ofCode kb.toNat with
    | none => .bad
    | some k =>
      if rest.length = payloadLength f k + 1 then
        if a.toNat = addr + 64 ∧ fn.toNat = f.code ∧ sumBytes frame.dropLast = frame.getLastD 0 then
          match readPayload f k rest.dropLast with
          | some p => .whole k p
          | none => .bad
        else .bad
      else .unfinished
  | _ => .unfinished

/-- The frame of a good reply: Table 2-3. -/
def replyFrame (addr : Nat) (f : FieldFunction) (k : NodeKind) (p : Payload) : List Byte :=
  let body := u8 (addr + 64) ++ u8 f.code ++ u8 k.code ++ p.bytes
  body ++ [sumBytes body]

end Sys2Proof.Machine
end

