-- ==== Sys2Proof/Machine/Flags.lean ====
section
/-! DEFINITION. Notice classes, the sets of them that each port keeps, and the attention line
(chapter 11). -/

namespace Sys2Proof.Machine

/-- Notice classes in order of priority (Table 11-1). -/
inductive NoticeClass where
  | smoke | airAlarm | driveFault | fieldFault | holdEnd | fallback | zoneState | bayChange
deriving DecidableEq, Repr

/-- A class's priority number, its code and its bit in a set. -/
def NoticeClass.priority : NoticeClass → Nat
  | .smoke => 0 | .airAlarm => 1 | .driveFault => 2 | .fieldFault => 3 | .holdEnd => 4 | .fallback => 5
  | .zoneState => 6 | .bayChange => 7

/-- The eight classes, highest priority first. -/
def noticeClasses : List NoticeClass :=
  [.smoke, .airAlarm, .driveFault, .fieldFault, .holdEnd, .fallback, .zoneState, .bayChange]

/-- The class a code names. -/
def NoticeClass.ofCode (n : Nat) : Option NoticeClass := noticeClasses.find? fun c => c.priority == n

/-- Whether a set holds a class. -/
def setHas (set : Byte) (c : NoticeClass) : Bool := set.getLsbD c.priority

/-- A class as a set. -/
def NoticeClass.bit (c : NoticeClass) : Byte := 1#8 <<< c.priority

/-- A set with a class added. -/
def setAdd (set : Byte) (c : NoticeClass) : Byte := set ||| c.bit

/-- A set with a class removed. -/
def setDrop (set : Byte) (c : NoticeClass) : Byte := set &&& ~~~ c.bit

/-- A class qualifies when it is pending, unmasked and above every taken class (R199, R200). -/
def qualifies (r : NoticeRecord) (c : NoticeClass) : Bool :=
  setHas r.pending c && !setHas r.mask c
    && noticeClasses.all fun t => !setHas r.taken t || decide (c.priority < t.priority)

/-- The highest-priority qualifying class (R200). -/
def topQualifying (r : NoticeRecord) : Option NoticeClass := noticeClasses.find? (qualifies r)

/-- The highest-priority class of a set (R201). -/
def topOf (set : Byte) : Option NoticeClass := noticeClasses.find? (setHas set)

/-- The attention line follows the sets (R199). -/
def NoticeRecord.reevaluate (r : NoticeRecord) : NoticeRecord :=
  { r with line := (topQualifying r).isSome }

/-- Add a raised class to the pending set of a port that routes it (R197). -/
def NoticeRecord.raise (c : NoticeClass) (r : NoticeRecord) : NoticeRecord :=
  if setHas r.routing c then { r with pending := setAdd r.pending c }.reevaluate else r

/-- Default routing by role (Table 11-3). -/
def Role.routing : Role → Byte
  | .supervisor => 0xFF#8
  | .lane => 0xD1#8
  | .fire => 0x07#8
  | .view => 0xC1#8

/-- A port's notice record at the installation of the tables (R203). -/
def NoticeRecord.installed (role : Role) : NoticeRecord :=
  { NoticeRecord.absent with routing := role.routing }

/-- A port's notice record after a warm restart (R203). -/
def NoticeRecord.restarted (r : NoticeRecord) : NoticeRecord :=
  { r with pending := 0, taken := 0, baseline := none, line := false }

/-- Default rights by role (Table 10-3). -/
def Role.rights : Role → Rights
  | .supervisor => ⟨true, true, true, true, false, true⟩
  | .lane => ⟨true, true, false, false, false, false⟩
  | .fire => ⟨true, false, false, false, true, false⟩
  | .view => ⟨true, false, false, false, false, false⟩

end Sys2Proof.Machine
end

