-- ==== Sys2Proof/Machine/Setpoints.lean ====
section
/-! DEFINITION. The site setpoints: ranges, defaults and the two passes of a write (section 1.3). -/

namespace Sys2Proof.Machine

/-- Store the nearest legal value (conventions, "clamping"). -/
def clamp (lo hi n : Nat) : Nat := max lo (min hi n)

/-- Own range and default of each setpoint, in number order (Table 1-3). -/
def setpointTable : List (Nat × Nat × Nat) :=
  [(10, 200, 35), (5, 100, 30), (1, 16, 4),
   (0, 500, 40), (0, 500, 90), (0, 500, 0), (0, 500, 60),
   (50, 2000, 250), (50, 2000, 500), (50, 2000, 750), (50, 2000, 950),
   (0, 200, 60), (30, 900, 120), (500, 2000, 1000), (100, 1950, 800), (1000, 2000, 1500),
   (200, 1900, 900), (30, 600, 120), (1, 4, 2)]
  ++ [(1, 255, 8), (1, 255, 16), (1, 255, 28), (1, 255, 40),
   (10, 100, 30), (10, 100, 55), (10, 100, 80), (10, 100, 100),
   (0, 50, 20), (10, 100, 60), (0, 100, 100), (2, 60, 10), (60, 900, 300),
   (5, 50, 15), (5, 80, 40), (5, 100, 100), (30, 1800, 180), (60, 3600, 900), (2, 8, 3)]

/-- The default of every setpoint. -/
def setpointDefaults : List Nat := setpointTable.map fun r => r.2.2

/-- A value clamped to its setpoint's own range. -/
def clampOwn (n v : Nat) : Nat :=
  match setpointTable[n]? with
  | some (lo, hi, _) => clamp lo hi v
  | none => v

/-- The held value of setpoint `n`. -/
def spOf (sp : List Nat) (n : Nat) : Nat := sp.getD n 0

/-- First pass of R10: each pair in list order, clamped to the setpoint's own range. -/
def firstPass (sp : List Nat) (pairs : List (Nat × Nat)) : List Nat :=
  pairs.foldl (fun held p => held.set p.1 (clampOwn p.1 p.2)) sp

/-- Set setpoint `n` to a function of the held set. -/
def rewrite (n : Nat) (f : List Nat → Nat) (sp : List Nat) : List Nat := sp.set n (f sp)

/-- Raise setpoint `n` to at least its predecessor's value. -/
def raiseTo (n m : Nat) : List Nat → List Nat := rewrite n fun sp => max (spOf sp n) (spOf sp m)

/-- Second pass of R10: the whole held set made legal, in the rule's order. -/
def secondPass (sp : List Nat) : List Nat :=
  [rewrite 7 fun s => clamp 50 1940 (spOf s 7),
   rewrite 8 fun s => clamp (spOf s 7 + 20) 1960 (spOf s 8),
   rewrite 9 fun s => clamp (spOf s 8 + 20) 1980 (spOf s 9),
   rewrite 10 fun s => clamp (spOf s 9 + 20) 2000 (spOf s 10),
   raiseTo 20 19, raiseTo 21 20, raiseTo 22 21,
   raiseTo 24 23, raiseTo 25 24, raiseTo 26 25,
   rewrite 14 fun s => clamp 100 (spOf s 13 - 50) (spOf s 14),
   rewrite 16 fun s => clamp 200 (spOf s 15 - 100) (spOf s 16),
   raiseTo 33 32, raiseTo 34 33].foldl (fun s step => step s) sp

/-- The held set after a write of `pairs` (R10). -/
def writeSetpoints (sp : List Nat) (pairs : List (Nat × Nat)) : List Nat := secondPass (firstPass sp pairs)

/-- The held set the image gives: values for setpoints 0 to n − 1, defaults above (R9). -/
def loadSetpoints (values : List Nat) : List Nat :=
  writeSetpoints setpointDefaults ((List.range values.length).zip values)

/-! ### The setpoints by name (Table 1-3) -/

/-- The held value of setpoint `n`. -/
def State.sp (s : State) (n : Nat) : Nat := spOf s.setpoints n

def State.coLimit (s : State) : Nat := s.sp 0
def State.no2Limit (s : State) : Nat := s.sp 1
def State.weight (s : State) : Nat := s.sp 2

/-- The credit of a vehicle class. -/
def State.creditOf (s : State) (c : VehicleClass) : Nat :=
  match c with
  | .petrol => s.sp 3
  | .diesel => s.sp 4
  | .electric => s.sp 5
  | .unknown => s.sp 6

/-- The stage threshold U_n, n from 1 to 4. -/
def State.threshold (s : State) (n : Nat) : Nat := s.sp (6 + n)

def State.hysteresis (s : State) : Nat := s.sp 11
def State.stageDwell (s : State) : Nat := s.sp 12
def State.doseLimit (s : State) : Nat := s.sp 13
def State.doseClear (s : State) : Nat := s.sp 14
def State.peakLimit (s : State) : Nat := s.sp 15
def State.peakClear (s : State) : Nat := s.sp 16
def State.sensorGrace (s : State) : Nat := s.sp 17
def State.failSafe (s : State) : Nat := s.sp 18

/-- The stage flow F_n: F0 is 0, F1 to F4 are setpoints 19 to 22. -/
def State.stageFlow (s : State) (n : Nat) : Nat := if n = 0 then 0 else s.sp (18 + n)

/-- The jet speed J_n: J0 is 0, J1 to J4 are setpoints 23 to 26. -/
def State.jetSpeed (s : State) (n : Nat) : Nat := if n = 0 then 0 else s.sp (22 + n)

def State.driveMinimum (s : State) : Nat := s.sp 27
def State.restrictedPercent (s : State) : Nat := s.sp 28
def State.smokeJet (s : State) : Nat := s.sp 29
def State.settleTime (s : State) : Nat := s.sp 30
def State.holdLifetime (s : State) : Nat := s.sp 31
def State.floorLight (s : State) : Nat := s.sp 32
def State.standbyLight (s : State) : Nat := s.sp 33
def State.activeLight (s : State) : Nat := s.sp 34
def State.activeHold (s : State) : Nat := s.sp 35
def State.standbyHold (s : State) : Nat := s.sp 36

/-- The miss threshold: setpoint 37, or 3 in SAFE (R22, R33). -/
def State.missThreshold (s : State) : Nat := if s.part = .safe then 3 else s.sp 37

end Sys2Proof.Machine
end

