-- ==== Sys2Proof/Machine/Ops.lean ====
section
/-! DEFINITION. The named operations over the part's registers that every block's rules share: one
entry of a table changed, a node commanded, a notice raised, and the frame of an event. -/

namespace Sys2Proof.Machine

/-! ### One record changed -/

def State.onSeg (s : State) (i : Nat) (f : Segment → Segment) : State := { s with segs := s.segs.adjust i f }
def State.onBay (s : State) (b : Nat) (f : Bay → Bay) : State := { s with bays := s.bays.adjust b f }
def State.onGas (s : State) (c : Nat) (f : GasChannel → GasChannel) : State := { s with gas := s.gas.adjust c f }
def State.onAir (s : State) (z : Nat) (f : AirZone → AirZone) : State := { s with air := s.air.adjust z f }
def State.onDrive (s : State) (d : Nat) (f : Drive → Drive) : State := { s with drives := s.drives.adjust d f }
def State.onVent (s : State) (z : Nat) (f : VentZone → VentZone) : State := { s with vent := s.vent.adjust z f }
def State.onShaft (s : State) (k : Nat) (f : Shaft → Shaft) : State := { s with shafts := s.shafts.adjust k f }
def State.onStatus (s : State) (z : Nat) (f : ZoneStatus → ZoneStatus) : State :=
  { s with status := s.status.adjust z f }
def State.onLight (s : State) (z : Nat) (f : LightZone → LightZone) : State :=
  { s with lights := s.lights.adjust z f }
def State.onSign (s : State) (k : Nat) (f : Sign → Sign) : State := { s with signs := s.signs.adjust k f }
def State.onPort (s : State) (p : Port) (f : PortRecord → PortRecord) : State :=
  { s with ports := s.ports.adjust p f }
def State.onNotice (s : State) (p : Port) (f : NoticeRecord → NoticeRecord) : State :=
  { s with notices := s.notices.adjust p f }

/-! ### What the tables hold -/

/-- The segment's record; a segment is always one of the eight. -/
def State.seg (s : State) (i : Nat) : Segment := (s.segs.look i).getD .stopped

/-- A node record, if the (segment, address) pair has one. -/
def State.node (s : State) (i a : Nat) : Option Node := (s.seg i).nodes.look a

/-- The state of a node; an address without a record stands EXPECTED. -/
def State.nodeState (s : State) (i a : Nat) : NodeState :=
  match s.node i a with
  | some n => n.state
  | none => .expected

/-- Whether a node state is in the polling cycle (R25). -/
def NodeState.reachable : NodeState → Bool
  | .present | .suspect => true
  | _ => false

/-- Whether a node state is LOST or MISMATCH. -/
def NodeState.gone : NodeState → Bool
  | .lost | .mismatch => true
  | _ => false

/-- Whether the engine's driver is enabled (R24, R32). -/
def Segment.driving (g : Segment) : Bool :=
  match g.phase with
  | .wakeActive | .wakeIdle | .sending _ => true
  | .quiet | .awaiting _ => false

/-- Whether a segment is in the option block's set of segments in use; in SAFE every segment is (R22). -/
def State.inUse (s : State) (i : Nat) : Bool :=
  s.part = .safe || (match s.options with
    | some o => o.segments.getLsbD i
    | none => false)

/-- The configured zones, in ascending order. -/
def State.zoneList (s : State) : List Nat := s.zones.places

/-- A zone's shaft, or NONE. -/
def State.shaftOf (s : State) (z : Nat) : Option Nat := (s.zones.look z).bind ZoneEntry.shaft

/-- Smoke mode stands. -/
def State.inSmoke (s : State) : Bool := s.smoke.isSome

/-- The override silence timeout in seconds; 30 before an option block is in force, where no port holds
a right and no second event comes. -/
def State.silenceLimit (s : State) : Nat :=
  match s.options with
  | some o => o.silence.seconds
  | none => 30

/-- A zone's free counts (R62). -/
def State.freeOf (s : State) (z : Nat) : FreeCounts := (s.free.look z).getD ⟨0, 0, 0, 0⟩

/-- A zone's free total (R62). -/
def FreeCounts.total (c : FreeCounts) : Nat := c.standard + c.wide + c.charger + c.accessible

/-- The free count of one kind. -/
def FreeCounts.ofKind (c : FreeCounts) : BayKind → Nat
  | .standard => c.standard
  | .wide => c.wide
  | .charger => c.charger
  | .accessible => c.accessible

/-- The zone status record of a zone; an empty record where the zone is not configured. -/
def State.statusOf (s : State) (z : Nat) : ZoneStatus :=
  (s.status.look z).getD ⟨⟨false, false, false⟩, none, none, false⟩

/-- A zone is open when its closure set is empty (R119). -/
def Closure.isOpen (c : Closure) : Bool := !c.supervisor && !c.air && !c.smoke

/-- Whether a zone is open. -/
def State.zoneOpen (s : State) (z : Nat) : Bool := (s.statusOf z).closure.isOpen

/-! ### Field commands and notices -/

/-- A write of a node's commanded value, whatever the node's state (R29). -/
def State.command (s : State) (i a : Nat) (v : Setting) : State :=
  s.onSeg i fun g => { g with nodes := g.nodes.adjust a fun n => { n with commanded := some v } }

/-- Raise a class for all four ports (R197). -/
def State.raise (s : State) (c : NoticeClass) : State := { s with notices := s.notices.each (·.raise c) }

/-- Raise a class for one port (R197). -/
def State.raiseFor (s : State) (p : Port) (c : NoticeClass) : State := s.onNotice p (·.raise c)

/-- A count that holds at 65,535. -/
def bump (n : Nat) : Nat := if n < 65535 then n + 1 else n

/-! ### Events -/

/-- An event of the part. While the RESET pin is low the part does nothing (R21). -/
def event (f : State → State) (s : State) : Host.Outcome State Fault Refusal :=
  .next (if s.resetLow then s else f s)

/-- Apply an operation for each item of a list, in order. -/
def State.forAll {α : Type} (s : State) (xs : List α) (f : State → α → State) : State := xs.foldl f s

end Sys2Proof.Machine
end

