-- ==== Sys2Proof/Machine/LightUnit.lean ====
section
/-! DEFINITION. The lighting unit: light states, deadlines and the level table (chapter 9). -/

namespace Sys2Proof.Machine

/-- The line of Table 9-2 that decides a zone's level: the first whose condition holds (R176). -/
def State.lightLine (s : State) (z : Nat) (l : LightZone) : LightLine :=
  if s.inSmoke then .smoke
  else if (s.statusOf z).forcedLight.isSome then .forced
  else if (s.statusOf z).closure.air then .air
  else if l.escorts > 0 then .escort
  else match l.state with
    | .active => .active
    | .standby => .standby
    | .floor => .floor

/-- Whether R177's cap reaches a line. READ ZONE reports it applied there even where the active and the standby level are
equal, so that it lowers nothing (DESIGN CHOICE, log entry 37). -/
def State.capReaches (s : State) (line : LightLine) : Bool :=
  s.supply = .restricted && (line = .escort || line = .active)

/-- The level a line gives a zone (Table 9-2, R177). -/
def State.lineLevel (s : State) (z : Nat) (line : LightLine) : Nat :=
  match line with
  | .smoke => 100
  | .forced => max ((s.statusOf z).forcedLight.getD 0) s.floorLight
  | .air => 100
  | .escort => if s.capReaches .escort then min s.activeLight s.standbyLight else s.activeLight
  | .active => if s.capReaches .active then min s.activeLight s.standbyLight else s.activeLight
  | .standby => s.standbyLight
  | .floor => s.floorLight

/-- The record with its level found afresh (R178). -/
def State.lit (s : State) (z : Nat) (l : LightZone) : LightZone :=
  let line := s.lightLine z l
  { l with level := s.lineLevel z line, line := line, capped := s.capReaches line }

/-- The lamp channel of a zone (R4). -/
def State.lampOf (s : State) (z : Nat) : Option (Nat × Lamp) := s.lamps.find? fun e => e.2.zone == z

/-- Write a level to the zone's LAMP node, if it has a lamp channel (R179). -/
def State.writeLamp (s : State) (z level : Nat) : State :=
  match s.lampOf z with
  | some (_, lamp) => s.command lamp.seg lamp.addr (.percent level)
  | none => s

/-- Find a zone's commanded level afresh and write it (R178, R179). -/
def State.relight (s : State) (z : Nat) : State :=
  match s.lights.look z with
  | none => s
  | some l => (s.onLight z (s.lit z)).writeLamp z (s.lit z l).level

/-- Find every zone's level afresh. -/
def State.relightAll (s : State) : State := s.forAll s.zoneList State.relight

/-- A movement for a zone (R173); an escort end is taken exactly so (R174). -/
def State.movement (s : State) (z : Nat) : State :=
  (s.onLight z fun l => { l with state := .active, deadline := some (s.timebase + s.activeHold) }).relight z

/-- An escort count handed over by the guidance unit (R174). -/
def State.escortHanded (s : State) (z n : Nat) : State :=
  (s.onLight z fun l => { l with escorts := n }).relight z

/-- An ACTIVE zone whose deadline is reached enters STANDBY (R175). -/
def State.activeReached (s : State) (z : Nat) : State :=
  match s.lights.look z with
  | none => s
  | some l =>
    match l.state, l.deadline with
    | .active, some d =>
      if d ≤ s.timebase then
        (s.onLight z fun l' =>
          { l' with state := .standby, deadline := some (s.timebase + s.standbyHold) }).relight z
      else s
    | _, _ => s

/-- A STANDBY zone whose deadline is reached enters FLOOR (R175). -/
def State.standbyReached (s : State) (z : Nat) : State :=
  match s.lights.look z with
  | none => s
  | some l =>
    match l.state, l.deadline with
    | .standby, some d =>
      if d ≤ s.timebase then
        (s.onLight z fun l' => { l' with state := .floor, deadline := none }).relight z
      else s
    | _, _ => s

/-- The zones whose lamp channel is on the LAMP node at (i, a). -/
def State.lampZones (s : State) (i a : Nat) : List Nat :=
  (s.lamps.filter fun e => e.2.seg = i ∧ e.2.addr = a).map fun e => e.2.zone

/-- Whether a failed-luminaire count is a rise over the held one (R180). -/
def failureRise (held : Option Nat) (n : Nat) : Bool :=
  match held with
  | some m => decide (m < n)
  | none => decide (0 < n)

/-- A zone's LAMP node reports its failed luminaires (R180). -/
def State.luminaires (s : State) (z n : Nat) : State :=
  match s.lights.look z with
  | none => s
  | some l =>
    let t := s.onLight z fun l' => { l' with failed := some n }
    if failureRise l.failed n then t.raise .fieldFault else t

end Sys2Proof.Machine
end

