-- ==== Sys2Proof/Machine/SignUnit.lean ====
section
/-! DEFINITION. The sign unit: targets, pacing, acknowledgement (chapter 8). -/

namespace Sys2Proof.Machine

/-- What a zone's free counts contribute under a filter (R164). -/
def SignFilter.contribution (f : SignFilter) (c : FreeCounts) : Nat :=
  match f with
  | .general => c.standard + c.wide
  | .wide => c.wide
  | .charger => c.charger
  | .accessible => c.accessible

/-- The sum over the listed zones that are open (R164). -/
def State.signSum (s : State) (g : Sign) : Nat :=
  ((g.zones.filter s.zoneOpen).map fun z => g.filter.contribution (s.freeOf z)).sum

/-- A sign's target: the first case of R164 that applies. -/
def State.targetOf (s : State) (g : Sign) : Display :=
  if s.inSmoke then .closed
  else if g.zones.all (fun z => !s.zoneOpen z) then .closed
  else if s.signSum g = 0 then .full
  else .count (min 999 (s.signSum g))

/-- Write the target to the node's commanded value if pacing is OPEN and it differs (R166). -/
def State.paceSign (s : State) (k : Nat) : State :=
  match s.signs.look k with
  | none => s
  | some g =>
    match g.pacing with
    | .pacing => s
    | .opened =>
      if (s.node g.seg g.addr).bind Node.commanded = some (.display g.target) then s
      else s.command g.seg g.addr (.display g.target)

/-- Recompute one sign's target (R165) and deal with it as pacing says (R166). -/
def State.retarget (s : State) (k : Nat) : State :=
  match s.signs.look k with
  | none => s
  | some g => (s.onSign k fun g' => { g' with target := s.targetOf g }).paceSign k

/-- Recompute every sign that lists one of the zones (R165). -/
def State.retargetZones (s : State) (zs : List Nat) : State :=
  s.forAll ((s.signs.filter fun e => e.2.zones.any fun z => zs.contains z).map Prod.fst) State.retarget

/-- Recompute every sign (smoke entry and clearing, R165). -/
def State.retargetAll (s : State) : State := s.forAll s.signs.places State.retarget

/-- The report of a display sent to the node at (i, a) (R167). -/
def State.displaySent (s : State) (i a : Nat) (d : Display) : State :=
  { s with signs := s.signs.each fun _ g =>
      if g.seg = i ∧ g.addr = a ∧ g.lastSent ≠ some d then
        { g with lastSent := some d, lastSend := some s.timebase, pacing := .pacing }
      else g }

/-- A node's acknowledgement: what the sign shows (R168). -/
def State.displayShown (s : State) (i a : Nat) (d : Display) : State :=
  { s with signs := s.signs.each fun _ g => if g.seg = i ∧ g.addr = a then { g with shown := some d } else g }

/-- A SIGN node's state change (R168). -/
def State.signNodeChange (s : State) (i a : Nat) (new : NodeState) : State :=
  if new.gone then
    { s with signs := s.signs.each fun _ g => if g.seg = i ∧ g.addr = a then { g with shown := none } else g }
  else s

/-- The end of a sign's pacing interval (R166). -/
def State.pacingEnd (s : State) (k : Nat) : State :=
  match s.signs.look k with
  | none => s
  | some g =>
    match g.pacing with
    | .opened => s
    | .pacing => (s.onSign k fun g' => { g' with pacing := .opened }).paceSign k

/-! ### The end of an event that changed free counts -/

/-- BAY_CHANGE against one port's baseline (R198). -/
def NoticeRecord.totalChanged (z total : Nat) (r : NoticeRecord) : NoticeRecord :=
  match r.baseline with
  | none => r
  | some b =>
    match b.look z with
    | none => r
    | some t => if t = total then r else r.raise .bayChange

/-- Hand one zone's counts over at the end of an event, if the event changed them (R63). `before` is the
state the event began in. -/
def State.handZone (before s : State) (z : Nat) : State :=
  if before.freeOf z = s.freeOf z then s
  else
    let t := s.retargetZones [z]
    if (before.freeOf z).total = (s.freeOf z).total then t
    else { t with notices := t.notices.each (·.totalChanged z (s.freeOf z).total) }

/-- Hand every changed zone's counts over, once per zone (R63). -/
def State.handCounts (before s : State) : State := s.forAll s.zoneList (State.handZone before)

/-- Run an event's work and hand the free counts it changed over at its end (R63). -/
def countingEvent (f : State → State) (s : State) : State := State.handCounts s (f s)

end Sys2Proof.Machine
end

