-- ==== Sys2Proof/Machine/BayTable.lean ====
section
/-! DEFINITION. The bay table and the holds on its bays: free counts, hold references and the ending
of a hold (sections 3.6, 3.7, 7.4 to 7.6), then detector reports and settles (sections 3.2 to 3.5). -/

namespace Sys2Proof.Machine

/-! ### Free counts -/

/-- A bay counts as free: FREE, no hold reference, not out of use (R62). -/
def Bay.counted (b : Bay) : Bool := b.occ = .free && b.hold.isNone && !b.outOfUse

/-- The number of a zone's bays of one kind that count as free (R62). -/
def countFree (bays : Table Bay) (z : Nat) (k : BayKind) : Nat :=
  (bays.filter fun e => e.2.zone = z && e.2.kind = k && e.2.counted).length

/-- A zone's four free counts (R62). -/
def countsOf (bays : Table Bay) (z : Nat) : FreeCounts :=
  ⟨countFree bays z .standard, countFree bays z .wide, countFree bays z .charger, countFree bays z .accessible⟩

/-- Keep a zone's free counts (R62). -/
def State.recount (s : State) (z : Nat) : State :=
  { s with free := s.free.each fun k c => if k = z then countsOf s.bays z else c }

/-- Change a bay record and keep its zone's free counts (R62). Every change of a bay goes through here;
a bay's zone never changes (R49). -/
def State.writeBay (s : State) (b : Nat) (f : Bay → Bay) : State :=
  match s.bays.look b with
  | none => s
  | some r => (s.onBay b f).recount r.zone

/-! ### The ending of a hold -/

/-- The end list with an entry appended (R157). -/
def EndList.append (l : EndList) (e : EndEntry) : EndList :=
  if l.entries.length ≥ 16 then ⟨l.entries.drop 1 ++ [e], true⟩ else ⟨l.entries ++ [e], l.overflow⟩

/-- The escort count of a zone. -/
def State.escortOf (s : State) (z : Nat) : Nat := (s.escorts.look z).getD 0

/-- A zone's new escort count and its escort end go to the lighting unit (R150 step 3, R174). -/
def State.escortEnd (s : State) (z : Nat) : State := (s.escortHanded z (s.escortOf z)).movement z

/-- Lower the escort count of a zone. -/
def State.lowerEscort (s : State) (z : Nat) : State := { s with escorts := s.escorts.adjust z (· - 1) }

/-- Raise the escort count of a zone and hand the new count to the lighting unit (R147 step 4). -/
def State.raiseEscort (s : State) (z : Nat) : State :=
  let t := { s with escorts := s.escorts.adjust z (· + 1) }
  t.escortHanded z (t.escortOf z)

/-- End the live hold in a slot with a cause: the five steps of R150. -/
def State.endHold (s : State) (slot : Nat) (cause : EndCause) : State :=
  match s.holds.look slot with
  | none => s
  | some h =>
    let s1 := { s with holds := s.holds.remove slot }
    let s2 := s1.writeBay h.bay fun b => { b with hold := none }
    let s3 := s2.forAll h.route State.lowerEscort
    let s4 := s3.forAll h.route State.escortEnd
    let e : EndEntry := ⟨slot, h.bay, h.zone, cause, s.timebase - h.created⟩
    let s5 := { s4 with ends := s4.ends.adjust h.port fun l => l.append e }
    s5.raiseFor h.port .holdEnd

/-- End, in ascending slot order, every live hold that meets a condition (R150). -/
def State.endHolds (s : State) (which : Hold → Bool) (cause : EndCause) : State :=
  s.forAll ((s.holds.filter fun e => which e.2).map Prod.fst) fun t slot => t.endHold slot cause

/-- End BAY_LOST every hold whose bay the event has taken to UNKNOWN (R54, R58, R153). -/
def State.endLostHolds (s : State) : State :=
  s.endHolds (fun h => match s.bays.look h.bay with
    | some b => b.occ = .unknown
    | none => false) .bayLost

/-! ### Detector reports and settling -/

/-- Effect of one detector report (Table 3-2, R51 to R54). `now` is the timebase and `settle` the settle
time held. -/
def Bay.report (now settle : Nat) (v : RawValue) (b : Bay) : Bay :=
  let b := { b with raw := some v }
  match b.occ, v with
  | .unknown, .absent => { b with occ := .free }
  | .unknown, .present => { b with occ := .occupied }
  | .unknown, .fault => b
  | .free, .absent => b
  | .free, .present => { b with occ := .settlingIn, deadline := some (now + settle) }
  | .settlingIn, .absent => { b with occ := .free, deadline := none, glitches := bump b.glitches }
  | .settlingIn, .present => b
  | .occupied, .absent => { b with occ := .settlingOut, deadline := some (now + settle) }
  | .occupied, .present => b
  | .settlingOut, .absent => b
  | .settlingOut, .present => { b with occ := .occupied, deadline := none, glitches := bump b.glitches }
  | _, .fault => { b with occ := .unknown, deadline := none }

/-- The bays that name the node at (i, a). -/
def State.nodeBays (s : State) (i a : Nat) : List Nat :=
  (s.bays.filter fun e => e.2.seg = i ∧ e.2.addr = a).map Prod.fst

/-- Apply the reply's value to one bay of the node. -/
def State.reportBay (slots : List RawValue) (s : State) (b : Nat) : State :=
  match s.bays.look b with
  | none => s
  | some r =>
    match slots[r.slot]? with
    | some v => s.writeBay b (Bay.report s.timebase s.settleTime v)
    | none => s

/-- A poll completion from the BAY node at (i, a), taken whole (R50). -/
def State.bayPoll (s : State) (i a : Nat) (slots : List RawValue) : State :=
  (s.forAll (s.nodeBays i a) (State.reportBay slots)).endLostHolds

/-- A BAY node's state change applied to the bays that name it (R58). The holds of the bays it loses are
ended by `endLostHolds` once every node of the event has been handed over. -/
def State.bayNodeChange (s : State) (i a : Nat) (new : NodeState) : State :=
  if new.gone then
    s.forAll (s.nodeBays i a) fun t b =>
      t.writeBay b fun r => { r with occ := .unknown, raw := none, deadline := none }
  else s

/-- Whether a bay is in a state with its deadline at or below the timebase (R55). -/
def State.settleDue (s : State) (b : Nat) (occ : Occupancy) : Bool :=
  match s.bays.look b with
  | some r => r.occ = occ && (match r.deadline with
    | some d => d ≤ s.timebase
    | none => false)
  | none => false

/-- A settle-in completes (R56): OCCUPIED, a movement, and any hold ended FULFILLED. -/
def State.settleIn (s : State) (b : Nat) : State :=
  match s.bays.look b with
  | none => s
  | some r =>
    let t := (s.writeBay b fun r' => { r' with occ := .occupied, deadline := none }).movement r.zone
    match r.hold with
    | some slot => t.endHold slot .fulfilled
    | none => t

/-! ### Readings of the counts for guidance and the edits -/

/-- The lowest-numbered bay of a zone and kind that counts as free (R146). -/
def State.lowestFree (s : State) (z : Nat) (k : BayKind) : Option Nat :=
  (s.bays.find? fun e => e.2.zone = z && e.2.kind = k && e.2.counted).map Prod.fst

/-- The bays of a zone in ascending order (R64). -/
def State.zoneBays (s : State) (z : Nat) : List (Nat × Bay) := s.bays.filter fun e => e.2.zone = z

end Sys2Proof.Machine
end

