-- ==== Sys2Proof/Machine/VentUnit.lean ====
section
/-! DEFINITION. The ventilation unit: stages, wants, drives and capacity, allocation, rotation and smoke
operation (chapter 5). -/

namespace Sys2Proof.Machine

/-! ### Stages, want and floor -/

/-- The highest n with D at or above U_n, or 0 (R91, R114). -/
def State.stageOf (s : State) (d : Nat) : Nat :=
  if d ≥ s.threshold 4 then 4
  else if d ≥ s.threshold 3 then 3
  else if d ≥ s.threshold 2 then 2
  else if d ≥ s.threshold 1 then 1
  else 0

/-- The computed stage and dwell start after a D update: rise, fall or hold (R91). -/
def State.staged (s : State) (d : Nat) (v : VentZone) : VentZone :=
  if s.stageOf d > v.computed then { v with computed := s.stageOf d, dwell := s.timebase }
  else if v.computed > 0 ∧ d + s.hysteresis < s.threshold v.computed ∧ v.dwell + s.stageDwell ≤ s.timebase then
    { v with computed := v.computed - 1, dwell := s.timebase }
  else v

/-- The alarm minimum the flags give (R92). -/
def State.alarmMinimum (s : State) (a : AirZone) : Nat :=
  if a.peak then 4 else if a.dose then 3 else if a.loss then s.failSafe else 0

/-- The highest stage n, not above the wanted stage, with F[n] at or below a flow (R103, R95). -/
def State.supported (s : State) (wanted flow : Nat) : Nat :=
  ((List.range (wanted + 1)).filter fun n => s.stageFlow n ≤ flow).foldl max 0

/-- Whether a zone's hold-out is applied: its flag is set and its alarm minimum is 2 or less (R94). -/
def State.holdOutApplied (s : State) (z alarmMin : Nat) : Bool := (s.statusOf z).holdOut && alarmMin ≤ 2

/-- The zone's alarm minimum recomputed from the air unit's flags (R92). -/
def State.withAlarm (s : State) (z : Nat) (v : VentZone) : VentZone :=
  match s.air.look z with
  | some a => { v with alarmMin := s.alarmMinimum a }
  | none => v

/-- A zone's want and floor recomputed at the wanted stage that stands (R94). -/
def State.sized (s : State) (z : Nat) (v : VentZone) : VentZone :=
  let base := match s.zones.look z with
    | some e => e.baseFlow
    | none => 0
  { v with
    floor := base
    want := if s.holdOutApplied z v.alarmMin then base else max base (s.stageFlow v.wanted) }

/-- The wanted stage, want and floor recomputed (R93, R94). -/
def State.figured (s : State) (z : Nat) (v : VentZone) : VentZone :=
  s.sized z { v with wanted := max ((s.statusOf z).forcedStage.getD v.computed) v.alarmMin }

/-! ### Drive commands -/

/-- The commanded value of a drive's node. -/
def State.commandDrive (s : State) (d : Drive) (speed : Nat) : State := s.command d.seg d.addr (.percent speed)

/-- The drives that serve a shaft, or a zone's JET drive, as a test on the duty. -/
def DriveDuty.ofShaft (k : Nat) : DriveDuty → Bool
  | .shaft k' _ => k' = k
  | .jet _ => false

def DriveDuty.ofJet (z : Nat) : DriveDuty → Bool
  | .shaft _ _ => false
  | .jet z' => z' = z

/-- Write the AVAILABLE drives that meet a test (R104). -/
def State.writeAvailable (s : State) (which : DriveDuty → Bool) (speed : Nat) : State :=
  s.forAll (s.drives.filter fun e => which e.2.duty && e.2.avail = .available) fun t e => t.commandDrive e.2 speed

/-- Write every drive that meets a test, whatever its availability (R112). -/
def State.writeDrives (s : State) (which : DriveDuty → Bool) (speed : Nat) : State :=
  s.forAll (s.drives.filter fun e => which e.2.duty) fun t e => t.commandDrive e.2 speed

/-- Write the zone's JET drive, if it is AVAILABLE, J[effective stage] (R104). -/
def State.writeJet (s : State) (z : Nat) : State :=
  match s.vent.look z with
  | some v => s.writeAvailable (DriveDuty.ofJet z) (s.jetSpeed v.effective)
  | none => s

/-! ### Allocation -/

/-- What the allocation step needs of a zone. -/
structure Claim where
  zone   : Nat
  wanted : Nat
  want   : Nat
  floor  : Nat
deriving DecidableEq, Repr

/-- A zone's claim on its shaft. -/
def State.claim (s : State) (z : Nat) : Claim :=
  match s.vent.look z with
  | some v => ⟨z, v.wanted, v.want, v.floor⟩
  | none => ⟨z, 0, 0, 0⟩

/-- Priority order: higher wanted stage first, the earlier in the ring first among equals (R101). -/
def priorityOrder (claims : List Claim) : List Claim :=
  [4, 3, 2, 1, 0].flatMap fun n => claims.filter fun c => c.wanted = n

/-- Give the remainder one unit at a time to the zones with a non-zero floor (R102, case 2). -/
def spread (rest : Nat) : List (Claim × Nat) → List (Nat × Nat)
  | [] => []
  | (c, share) :: more =>
    if c.floor > 0 ∧ rest > 0 then (c.zone, share + 1) :: spread (rest - 1) more
    else (c.zone, share) :: spread rest more

/-- Offer the remainder to the zones in priority order (R102, case 3). -/
def offer (rest : Nat) : List Claim → List (Nat × Nat)
  | [] => []
  | c :: more =>
    let take := min (c.want - c.floor) rest
    (c.zone, c.floor + take) :: offer (rest - take) more

/-- The allocation of a shaft with capacity `cap` among claims in priority order (R102). -/
def allocate (cap : Nat) (claims : List Claim) : List (Nat × Nat) :=
  let floors := (claims.map Claim.floor).sum
  if cap = 0 then claims.map fun c => (c.zone, 0)
  else if floors > cap then
    let shares := claims.map fun c => (c, c.floor * cap / floors)
    spread (cap - (shares.map Prod.snd).sum) shares
  else offer (cap - floors) claims

/-- One zone's allocation in a list of them. -/
def allocOf (allocs : List (Nat × Nat)) (z : Nat) : Nat :=
  match allocs.find? (fun e => e.1 == z) with
  | some e => e.2
  | none => 0

/-- The speed command of a shaft with total flow Q and available rating A (R105). -/
def State.shaftSpeed (s : State) (q a : Nat) : Nat :=
  if q = 0 then 0 else max s.driveMinimum ((q * 100 + a - 1) / a)

/-- Write the allocations of a ring into its zones' records, with their effective stages (R103). -/
def State.storeAllocations (s : State) (ring : List Nat) (allocs : List (Nat × Nat)) : State :=
  s.forAll ring fun t z => t.onVent z fun v =>
    { v with alloc := some (allocOf allocs z), effective := t.supported v.wanted (allocOf allocs z) }

/-- The allocations of a shaft under a ring (R101, R102). -/
def State.allocations (s : State) (cap : Nat) (ring : List Nat) : List (Nat × Nat) :=
  allocate cap (priorityOrder (ring.map s.claim))

/-- The zones that leave the taken-for-service set because their wanted stage fell below 2 (R106). -/
def State.retired (s : State) (k : Shaft) : List Nat :=
  k.ring.filter fun z => k.taken.contains z && (s.claim z).wanted < 2

/-- The taken-for-service set after a review against the allocations (R106), in ring order. -/
def State.reviewed (s : State) (k : Shaft) (allocs : List (Nat × Nat)) : List Nat :=
  k.ring.filter fun z => (s.claim z).wanted ≥ 2 && allocOf allocs z = (s.claim z).want
    || k.taken.contains z && (s.claim z).wanted ≥ 2 && allocOf allocs z > (s.claim z).want

/-- The ring after a review: in ROTATING mode the retired zones go to the end (R107). -/
def State.rotated (s : State) (k : Shaft) : List Nat :=
  match k.mode with
  | .fixed => k.ring
  | .rotating => k.ring.filter (fun z => !(s.retired k).contains z) ++ s.retired k

/-- A shaft's recomputation: allocations, effective stages, review and ring move, then the commands of
the last pass (R100 to R107). -/
def State.recomputeShaft (s : State) (n : Nat) : State :=
  match s.shafts.look n with
  | none => s
  | some k =>
    let taken := s.reviewed k (s.allocations k.capacity k.ring)
    let ring := s.rotated k
    let allocs := s.allocations k.capacity ring
    let q := (allocs.map Prod.snd).sum
    let speed := s.shaftSpeed q k.rating
    let s1 := s.onShaft n fun k' => { k' with taken := taken, ring := ring, flow := q, speed := speed }
    let s2 := s1.storeAllocations ring allocs
    let s3 := s2.writeAvailable (DriveDuty.ofShaft n) speed
    s3.forAll ring State.writeJet

/-- A zone with no shaft: its effective stage from its want, and its JET command (R95, R104). -/
def State.recomputeLone (s : State) (z : Nat) : State :=
  (s.onVent z fun v => { v with alloc := none, effective := s.supported v.wanted v.want }).writeJet z

/-- Recompute what a change of a zone's wanted stage, want or floor reaches (R94, R95, R100). -/
def State.recomputeFor (s : State) (z : Nat) : State :=
  match s.shaftOf z with
  | some k => s.recomputeShaft k
  | none => s.recomputeLone z

/-- Recompute every shaft and every zone with no shaft (R11, R114). -/
def State.recomputeAll (s : State) : State :=
  (s.forAll s.shafts.places State.recomputeShaft).forAll
    (s.zoneList.filter fun z => (s.shaftOf z).isNone) State.recomputeLone

/-- Recompute a zone's alarm minimum, wanted stage, want and floor, and its shaft if they changed; in
smoke mode the alarm minimum alone (R92 to R94, R100, R113). -/
def State.updateZone (s : State) (z : Nat) : State :=
  match s.vent.look z with
  | none => s
  | some v =>
    if s.inSmoke then s.onVent z (s.withAlarm z)
    else
      let v' := s.figured z (s.withAlarm z v)
      let t := s.onVent z fun w => s.figured z (s.withAlarm z w)
      if v'.wanted = v.wanted ∧ v'.want = v.want ∧ v'.floor = v.floor then t else t.recomputeFor z

/-- A D update handed over by the air unit (R91 to R93, R113). -/
def State.stageUpdate (s : State) (z d : Nat) : State :=
  if s.inSmoke then s.updateZone z else (s.onVent z (s.staged d)).updateZone z

/-! ### Drives and capacity -/

/-- The rated flow a drive gives a shaft while AVAILABLE (R99). -/
def Drive.ratedFor (k : Nat) (d : Drive) : Nat :=
  match d.duty, d.avail with
  | .shaft k' rated, .available => if k' = k then rated else 0
  | _, _ => 0

/-- A shaft's available rating A (R99). -/
def State.ratingOf (s : State) (k : Nat) : Nat := (s.drives.map fun e => e.2.ratedFor k).sum

/-- A shaft's capacity C under the supply state (R99). -/
def State.capacityFrom (s : State) (a : Nat) : Nat :=
  match s.supply with
  | .normal => a
  | .restricted => a * s.restrictedPercent / 100

/-- A and C recomputed (R99). -/
def State.refreshCapacity (s : State) (n : Nat) : State :=
  s.onShaft n fun k => { k with rating := s.ratingOf n, capacity := s.capacityFrom (s.ratingOf n) }

/-- A capacity change of a shaft (R99, R100); in smoke mode A and C are recomputed for reading (R113). -/
def State.capacityChange (s : State) (n : Nat) : State :=
  let t := s.refreshCapacity n
  if s.inSmoke then t else t.recomputeShaft n

/-- A capacity change of every shaft (R11, R129). -/
def State.capacityChangeAll (s : State) : State :=
  let t := s.forAll s.shafts.places State.refreshCapacity
  if s.inSmoke then t else t.forAll t.shafts.places State.recomputeShaft

/-- A drive's availability changes: DRIVE_FAULT, the jet fault flag, capacity and the present command
(R98, R99, R104). -/
def State.setAvail (s : State) (n : Nat) (new : Availability) : State :=
  match s.drives.look n with
  | none => s
  | some d =>
    if d.avail = new then s
    else
      let s1 := s.onDrive n fun d' => { d' with avail := new }
      let s2 := if d.avail = .unavailable ∨ new = .unavailable then s1.raise .driveFault else s1
      match d.duty with
      | .shaft k _ => s2.capacityChange k
      | .jet z =>
        let s3 := s2.onVent z fun v => { v with jetFault := new = .unavailable }
        if s.inSmoke then s3 else s3.writeJet z

/-- The drives carried by the node at (i, a). -/
def State.nodeDrives (s : State) (i a : Nat) : List Nat :=
  (s.drives.filter fun e => e.2.seg = i ∧ e.2.addr = a).map Prod.fst

/-- The availability a DRIVE node's change gives (R96). -/
def Availability.afterNode (v : Availability) (old new : NodeState) : Availability :=
  if new.gone then .unavailable
  else match v, new with
    | .waiting, .present => .available
    | .unavailable, .present => if old.gone then .available else v
    | _, _ => v

/-- A DRIVE node's state change (R96). -/
def State.driveNodeChange (s : State) (i a : Nat) (old new : NodeState) : State :=
  s.forAll (s.nodeDrives i a) fun t n =>
    match t.drives.look n with
    | none => t
    | some d =>
      let t1 := if new.gone then t.onDrive n fun d' => { d' with reported := none } else t
      t1.setAvail n (d.avail.afterNode old new)

/-- The availability a drive's own report gives (R97). -/
def Availability.afterReport (v : Availability) (reachable : Bool) (r : DriveState) : Availability :=
  match v, r with
  | .available, .tripped => .unavailable
  | .unavailable, .running | .unavailable, .stopped => if reachable then .available else v
  | _, _ => v

/-- The drive state of a good SET reply from the node at (i, a) (R97). -/
def State.driveReport (s : State) (i a : Nat) (r : DriveState) : State :=
  s.forAll (s.nodeDrives i a) fun t n =>
    match t.drives.look n with
    | none => t
    | some d =>
      (t.onDrive n fun d' => { d' with reported := some r }).setAvail n
        (d.avail.afterReport (t.nodeState i a).reachable r)

/-! ### Smoke operation -/

/-- The level of a zone. -/
def State.levelOf (s : State) (z : Nat) : Nat :=
  match s.zones.look z with
  | some e => e.level
  | none => 0

/-- The JET command of a zone while smoke mode stands with a fire level (R112). -/
def State.smokeJetOf (s : State) (level z : Nat) : Nat := if s.levelOf z = level then s.smokeJet else 0

/-- Write the smoke command to one zone's JET drive (R13, R112). -/
def State.writeSmokeJet (s : State) (level z : Nat) : State :=
  s.writeDrives (DriveDuty.ofJet z) (s.smokeJetOf level z)

/-- Write the smoke command to every JET drive (R112, R132). -/
def State.writeSmokeJets (s : State) (level : Nat) : State :=
  s.forAll s.zoneList fun t z => t.writeSmokeJet level z

/-- Smoke entry at the ventilation unit (R112). -/
def State.ventSmokeEntry (s : State) (level : Nat) : State :=
  let s1 := { s with
    vent := s.vent.each fun _ v => { v with alloc := v.alloc.map fun _ => 0 }
    shafts := s.shafts.each fun _ k => { k with flow := 0, taken := [], speed := 100 } }
  let s2 := s1.forAll s1.shafts.places fun t n => t.writeDrives (DriveDuty.ofShaft n) 100
  s2.writeSmokeJets level

/-- The computed stage taken afresh from the zone's last D, with the dwell start at the present (R114). -/
def State.restaged (s : State) (z : Nat) (v : VentZone) : VentZone :=
  let d := match s.air.look z with
    | some a => a.demand
    | none => 0
  { v with computed := s.stageOf d, dwell := s.timebase }

/-- Smoke clearing at the ventilation unit (R114): stages afresh from the last D. -/
def State.ventSmokeClear (s : State) : State :=
  let s1 := { s with vent := s.vent.each fun z v => s.figured z (s.withAlarm z (s.restaged z v)) }
  s1.recomputeAll

/-! ### The ring edits -/

/-- A ring change of a shaft: recomputed outside smoke mode (R100, R109, R110). -/
def State.ringChange (s : State) (n : Nat) (ring : List Nat) : State :=
  let t := s.onShaft n fun k => { k with ring := ring }
  if s.inSmoke then t else t.recomputeShaft n

/-- Take a zone out of its old shaft's ring and taken-for-service set (R111 steps 1 and 2). -/
def State.leaveShaft (s : State) (z : Nat) (old : Option Nat) : State :=
  match old with
  | some n => s.onShaft n fun k => { k with ring := k.ring.filter (· != z), taken := k.taken.filter (· != z) }
  | none => s

/-- Append a zone to the end of its new shaft's ring (R111 step 3). -/
def State.joinShaft (s : State) (z : Nat) (new : Option Nat) : State :=
  match new with
  | some n => s.onShaft n fun k => { k with ring := k.ring ++ [z] }
  | none => s

/-- The configured zones of a shaft (R2). -/
def State.shaftZones (s : State) (n : Nat) : List Nat := s.zoneList.filter fun z => s.shaftOf z = some n

end Sys2Proof.Machine
end

