-- ==== Sys2Proof/Machine/StatusUnit.lean ====
section
/-! DEFINITION. The zone status unit: closures, override lapse, supply and smoke mode (chapter 6). -/

namespace Sys2Proof.Machine

/-! ### Closures -/

/-- The causes of a closure (R119). -/
inductive ClosureCause where
  | supervisor | air | smoke
deriving DecidableEq, Repr

/-- Whether a closure set holds a cause. -/
def Closure.has (c : Closure) : ClosureCause → Bool
  | .supervisor => c.supervisor
  | .air => c.air
  | .smoke => c.smoke

/-- A closure set with a cause held or not held. -/
def Closure.mark (c : Closure) (cause : ClosureCause) (held : Bool) : Closure :=
  match cause with
  | .supervisor => { c with supervisor := held }
  | .air => { c with air := held }
  | .smoke => { c with smoke := held }

/-- The cause a hold ends with when its zone closes (R120, R154). -/
def ClosureCause.endCause : ClosureCause → EndCause
  | .supervisor => .supervisorClosed
  | .air => .airClosed
  | .smoke => .smoke

/-- Write a cause in the closure sets of some zones. -/
def State.markZones (s : State) (zs : List Nat) (cause : ClosureCause) (held : Bool) : State :=
  s.forAll zs fun t z => t.onStatus z fun r => { r with closure := r.closure.mark cause held }

/-- The closure sets go to the units that read them, and ZONE_STATE is raised (R120, R121). -/
def State.closureHanded (s : State) (zs : List Nat) (cause : ClosureCause) : State :=
  let s1 := s.retargetZones zs
  let s2 := if cause = .air then s1.forAll zs State.relight else s1
  s2.raise .zoneState

/-- Add a cause to the closure sets of the zones that do not hold it: the holds of those that were open
end in ascending slot order, then the sets are handed over (R120, R131). -/
def State.addCause (s : State) (zs : List Nat) (cause : ClosureCause) : State :=
  match zs.filter fun z => s.status.has z && !(s.statusOf z).closure.has cause with
  | [] => s
  | new =>
    let closing := new.filter s.zoneOpen
    let s1 := s.markZones new cause true
    let s2 := s1.endHolds (fun h => closing.contains h.zone) cause.endCause
    s2.closureHanded new cause

/-- Remove a cause from the closure sets of the zones that hold it (R121, R133). -/
def State.removeCause (s : State) (zs : List Nat) (cause : ClosureCause) : State :=
  match zs.filter fun z => (s.statusOf z).closure.has cause with
  | [] => s
  | gone => (s.markZones gone cause false).closureHanded gone cause

/-! ### Overrides -/

/-- A zone status record with its override record cleared (R128, R131). -/
def ZoneStatus.cleared (r : ZoneStatus) : ZoneStatus :=
  { r with forcedStage := none, forcedLight := none, holdOut := false }

/-- The zones whose forced stage or hold-out flag is recorded. -/
def State.plantOverridden (s : State) : List Nat :=
  s.zoneList.filter fun z => (s.statusOf z).forcedStage.isSome || (s.statusOf z).holdOut

/-- The zones whose forced light is recorded. -/
def State.lightOverridden (s : State) : List Nat := s.zoneList.filter fun z => (s.statusOf z).forcedLight.isSome

/-- A lapse is taken (R128). -/
def State.takeLapse (s : State) : State :=
  let s1 := { s with lapse := .lapsed, status := s.status.each fun _ r => r.cleared }
  let s2 := s1.forAll s.plantOverridden State.updateZone
  let s3 := s2.forAll s.lightOverridden State.relight
  s3.raise .fallback

/-- The lapse condition has ended: the state is WATCHING again (R127). -/
def State.lapseEnds (s : State) : State := { s with lapse := .watching, lapseHolds := false }

/-- The port's silence: the timebase less its last request time (R193). -/
def State.silence (s : State) (p : Port) : Nat := s.timebase - (s.ports.at p).lastRequest

/-- The lapse condition: every port that holds OVERRIDE is silent for the timeout (R127). -/
def State.lapseCondition (s : State) : Bool :=
  allPorts.all fun p => !(s.ports.at p).rights.override || decide (s.silenceLimit ≤ s.silence p)

/-! ### Supply -/

/-- The supply state stored, and a change handed to ventilation and lighting (R129). -/
def State.setSupply (s : State) (v : Supply) : State :=
  if s.supply = v then s else ({ s with supply := v }).capacityChangeAll.relightAll

/-! ### Smoke mode -/

/-- The zones whose hold-out flag is set. -/
def State.heldOut (s : State) : List Nat := s.zoneList.filter fun z => (s.statusOf z).holdOut

/-- Every override record cleared at the entry to smoke mode, and the want of each zone whose hold-out flag that
clears found again at the wanted stage as it stood (R131 step 3, R94, R113; log entry 28). -/
def State.clearForSmoke (s : State) : State :=
  let t := { s with status := s.status.each fun _ r => r.cleared }
  t.forAll s.heldOut fun u z => u.onVent z (u.sized z)

/-- Entry to smoke mode, in the order of R131. -/
def State.smokeEntry (s : State) (level : Nat) : State :=
  let s1 := { s with smoke := some level }
  let s2 := s1.addCause s1.zoneList .smoke
  let s3 := s2.clearForSmoke
  let s4 := s3.ventSmokeEntry level
  let s5 := s4.relightAll
  let s6 := s5.retargetAll
  s6.raise .smoke

/-- A change of fire level while smoke mode stands (R132). -/
def State.fireLevelChange (s : State) (level : Nat) : State :=
  (({ s with smoke := some level }).writeSmokeJets level).raise .smoke

/-- Smoke clearing, in the order of R133. -/
def State.smokeClearing (s : State) : State :=
  let s1 := { s with smoke := none }
  let s2 := s1.removeCause s1.zoneList .smoke
  let s3 := s2.ventSmokeClear
  let s4 := s3.relightAll
  let s5 := s4.retargetAll
  s5.raise .smoke

end Sys2Proof.Machine
end

