-- ==== Sys2Proof/Machine/AirUnit.lean ====
section
/-! DEFINITION. The air unit: gas channels, samples, credit, the dose ring and the alarms (chapter 4). -/

namespace Sys2Proof.Machine

/-! ### Gas channels -/

/-- A channel is valid when its node is PRESENT or SUSPECT and its last status is OK (R68). -/
def State.chanValid (s : State) (c : GasChannel) : Bool :=
  (s.nodeState c.seg c.addr).reachable && c.status = some .ok

/-- The channels of a zone, in ascending order (R4). -/
def State.zoneChannels (s : State) (z : Nat) : List (Nat × GasChannel) := s.gas.filter fun e => e.2.zone = z

/-- The zone's valid channels. -/
def State.validChannels (s : State) (z : Nat) : List GasChannel :=
  ((s.zoneChannels z).map Prod.snd).filter s.chanValid

/-- The channels of the node at (i, a). -/
def State.nodeChannels (s : State) (i a : Nat) : List Nat :=
  (s.gas.filter fun e => e.2.seg = i ∧ e.2.addr = a).map Prod.fst

/-- The zones that have a channel on the node, in ascending order. -/
def State.nodeZones (s : State) (i a : Nat) : List Nat :=
  s.zoneList.filter fun z => (s.zoneChannels z).any fun e => e.2.seg = i ∧ e.2.addr = a

/-- The zones that have a valid channel on the node, in ascending order (R71). -/
def State.sampledZones (s : State) (i a : Nat) : List Nat :=
  s.zoneList.filter fun z => (s.zoneChannels z).any fun e => e.2.seg = i ∧ e.2.addr = a ∧ s.chanValid e.2

/-- A value handed over, held at its gas's top (R31). -/
def Gas.capped (g : Gas) (v : Nat) : Nat :=
  match g with
  | .co => min v 1000
  | .no2 => min v 500

/-- One channel's record after a completion: the status, and the value if the status is OK (R69). -/
def GasChannel.taken (c : GasChannel) (value : Nat) (status : GasStatus) : GasChannel :=
  { c with status := some status, reading := if status = .ok then some (c.gas.capped value) else c.reading }

/-- Start a zone's loss timer if the zone has channels, none of them valid, and no timer running (R82). -/
def State.startLoss (s : State) (z : Nat) : State :=
  if (s.zoneChannels z).isEmpty || !(s.validChannels z).isEmpty then s
  else s.onAir z fun a => if a.lossStart.isNone then { a with lossStart := some s.timebase } else a

/-- A GAS node's state change (R70, R82). -/
def State.gasNodeChange (s : State) (i a : Nat) (new : NodeState) : State :=
  let t := if new.gone then
      s.forAll (s.nodeChannels i a) fun t c => t.onGas c fun g => { g with status := none }
    else s
  t.forAll (t.nodeZones i a) State.startLoss

/-! ### Samples -/

/-- The largest last reading of one gas among channels (R72). -/
def largest (g : Gas) (chans : List GasChannel) : Option Nat :=
  match (chans.filter fun c => c.gas = g).map fun c => c.reading.getD 0 with
  | [] => none
  | r :: rs => some (rs.foldl max r)

/-- The index of a sample (R72). -/
def State.sampleIndex (s : State) (z : Nat) : Nat :=
  let chans := s.validChannels z
  let term (m : Option Nat) (limit : Nat) : Nat :=
    match m with
    | some v => v * 1000 / limit
    | none => 0
  min 2000 (max (term (largest .co chans) s.coLimit) (term (largest .no2 chans) s.no2Limit))

/-- The smoothed index moved toward the index: R73's step, truncated toward zero and never 0 while they
differ. -/
def smoothed (k i s : Nat) : Nat :=
  if i ≥ s then s + (if i = s then 0 else max 1 ((i - s) * k / 16))
  else s - max 1 ((s - i) * k / 16)

/-- The PEAK flag after a D update: the clear test, then at a sample the set test (R80). -/
def State.peakAfter (s : State) (a : AirZone) (sample : Option Nat) : Bool :=
  match sample with
  | some i => decide (s.peakLimit ≤ i) || (a.peak && !decide (a.smooth < s.peakClear))
  | none => a.peak && !decide (a.smooth < s.peakClear)

/-- A D update of a zone: PEAK, D = S + T held at 2000, handed to the ventilation unit (R76). -/
def State.dUpdate (s : State) (z : Nat) (sample : Option Nat) : State :=
  match s.air.look z with
  | none => s
  | some a =>
    let d := min 2000 (a.smooth + a.credit)
    (s.onAir z fun b => { b with peak := s.peakAfter b sample, demand := d }).stageUpdate z d

/-- The open bin with a sample added (R77). -/
def AirZone.binned (a : AirZone) (i : Nat) : AirZone :=
  if a.binCount < 65535 then { a with binSum := a.binSum + i, binCount := a.binCount + 1 } else a

/-- A zone's sample, in the order of R71. -/
def State.sample (s : State) (z : Nat) : State :=
  let i := s.sampleIndex z
  let t := s.onAir z fun a =>
    { ({ a with index := i, smooth := smoothed s.weight i a.smooth }).binned i with
      lossStart := none, loss := false, graceDue := false }
  t.dUpdate z (some i)

/-! ### Alarms handed on -/

/-- Whether a zone's alarms differ between two states. -/
def alarmsDiffer (a b : AirZone) : Bool := a.peak != b.peak || a.dose != b.dose || a.loss != b.loss

/-- The AIR state stands while PEAK or DOSE is set (R84). -/
def AirZone.airState (a : AirZone) : Bool := a.peak || a.dose

/-- The zones whose air record meets a test on the record before and after an event. -/
def changedZones (before s : State) (test : AirZone → AirZone → Bool) : List Nat :=
  s.zoneList.filter fun z =>
    match before.air.look z, s.air.look z with
    | some a, some b => test a b
    | _, _ => false

/-- Hand the alarm changes of an event on: the AIR state to the zone status unit, AIR_ALARM to the
notice unit (R84, R123). -/
def State.handAlarms (before s : State) : State :=
  let s1 := s.addCause (changedZones before s fun a b => !a.airState && b.airState) .air
  let s2 := s1.removeCause (changedZones before s fun a b => a.airState && !b.airState) .air
  if (changedZones before s alarmsDiffer).isEmpty then s2 else s2.raise .airAlarm

/-- Run the air unit's work of an event and hand its alarm changes on. -/
def airEvent (f : State → State) (s : State) : State := State.handAlarms s (f s)

/-! ### The air unit's events -/

/-- Write the channels of a completion from the GAS node at (i, a) (R69). -/
def State.writeChannels (s : State) (i a v0 : Nat) (s0 : GasStatus) (v1 : Nat) (s1 : GasStatus) : State :=
  s.forAll (s.nodeChannels i a) fun t n => t.onGas n fun c =>
    if c.chan = 0 then c.taken v0 s0 else c.taken v1 s1

/-- A poll completion from a GAS node, taken whole: statuses and readings, then a sample for each zone
with a valid channel on the node, or a loss timer for one left without any (R69, R71, R82). -/
def State.gasPoll (s : State) (i a v0 : Nat) (s0 : GasStatus) (v1 : Nat) (s1 : GasStatus) : State :=
  let t := s.writeChannels i a v0 s0 v1 s1
  let u := airEvent (fun t => t.forAll (t.sampledZones i a) State.sample) t
  u.forAll (u.nodeZones i a) State.startLoss

/-- A credit event: each listed zone's T rises, held at 1000, and has a D update (R74). -/
def State.creditEvent (s : State) (c : VehicleClass) (zs : List Nat) : State :=
  airEvent (fun t => t.forAll zs fun u z =>
    (u.onAir z fun a => { a with credit := min 1000 (a.credit + u.creditOf c) }).dUpdate z none) s

/-- A15 of a ring: the mean of its non-empty bins, when at least five are (R79). -/
def ringMean (ring : List (Option Nat)) : Option Nat :=
  let means := ring.filterMap id
  if means.length < 5 then none else some (means.sum / means.length)

/-- The DOSE flag after a minute close (R81). -/
def State.doseAfter (s : State) (a15 : Option Nat) (dose : Bool) : Bool :=
  match a15 with
  | none => dose
  | some m => if m ≥ s.doseLimit then true else if m < s.doseClear then false else dose

/-- The mean of the open bin, or EMPTY (R78 step 1). -/
def AirZone.binMean (a : AirZone) : Option Nat := if a.binCount = 0 then none else some (a.binSum / a.binCount)

/-- Steps 1 to 7 of a zone's minute close (R78). -/
def State.closeMinute (s : State) (a : AirZone) : AirZone :=
  let ring := a.ring.set a.writePos a.binMean
  { a with
    ring := ring
    writePos := if a.writePos = 14 then 0 else a.writePos + 1
    binSum := 0
    binCount := 0
    a15 := ringMean ring
    dose := s.doseAfter (ringMean ring) a.dose
    credit := a.credit * 3 / 4 }

/-- The minute close of every configured zone in turn (R78). -/
def State.minuteClose (s : State) : State :=
  airEvent (fun t => t.forAll t.zoneList fun u z => (u.onAir z u.closeMinute).dUpdate z none) s

/-- Whether a zone's loss timer stands at or above the sensor grace with SENSOR_LOSS clear (R83). -/
def State.graceReached (s : State) (a : AirZone) : Bool :=
  match a.lossStart with
  | some t => !a.loss && decide (s.sensorGrace ≤ s.timebase - t)
  | none => false

/-- SENSOR_LOSS is set and the zone's alarm state handed on alone (R83, R84). -/
def State.setLoss (s : State) (z : Nat) : State :=
  airEvent (fun t => (t.onAir z fun a => { a with loss := true, graceDue := false }).updateZone z) s

end Sys2Proof.Machine
end

