-- ==== Sys2Proof/Machine/GuidanceUnit.lean ====
section
/-! DEFINITION. The guidance unit: bay selection and the making of a hold (sections 7.2 and 7.3). -/

namespace Sys2Proof.Machine

/-- The passes of a request, each with its tier (Table 7-2); a wanted kind of `none` is ANY. -/
def tiers (wanted : Option BayKind) (c : VehicleClass) : List (List BayKind) :=
  match wanted, c with
  | some k, _ => [[k]]
  | none, .electric => [[.charger], [.standard, .wide]]
  | none, _ => [[.standard, .wide]]

/-- A zone's tier free count (R142). -/
def State.tierFree (s : State) (z : Nat) (tier : List BayKind) : Nat := (tier.map (s.freeOf z).ofKind).sum

/-- The place of a pair in the route table. -/
def routePlace (entry zone : Nat) : Nat := 64 * entry + zone

/-- The route of a pair (R6). -/
def State.routeOf (s : State) (entry zone : Nat) : Option (List Nat) := s.routes.look (routePlace entry zone)

/-- The candidate zones of a pass, in ascending order (R143). -/
def State.candidates (s : State) (entry : Nat) (tier : List BayKind) : List Nat :=
  s.zoneList.filter fun z => s.zoneOpen z && (s.routeOf entry z).isSome && s.tierFree z tier > 0

/-- The air band of an air record (Table 7-3). -/
def State.bandOf (s : State) (a : AirZone) : Nat :=
  if a.loss then 3
  else if a.demand ≥ s.threshold 3 then 3
  else if a.demand ≥ s.threshold 2 then 2
  else if a.demand ≥ s.threshold 1 then 1
  else 0

/-- A zone's air band (R144). -/
def State.airBand (s : State) (z : Nat) : Nat :=
  match s.air.look z with
  | some a => s.bandOf a
  | none => 0

/-- A zone's demand D. -/
def State.demandOf (s : State) (z : Nat) : Nat :=
  match s.air.look z with
  | some a => a.demand
  | none => 0

/-- A candidate's score (R145). -/
def State.score (s : State) (entry : Nat) (c : VehicleClass) (z : Nat) : Nat :=
  (match s.routeOf entry z with
    | some r => r.length * 10
    | none => 0)
  + s.airBand z * 25
  + (if c = .diesel ∧ s.demandOf z ≥ s.threshold 2 then 50 else 0)

/-- Whether candidate `z` beats `w`: the lower score, then the greater tier free count, then the lower
zone number (R145). -/
def State.beats (s : State) (entry : Nat) (c : VehicleClass) (tier : List BayKind) (z w : Nat) : Bool :=
  if s.score entry c z = s.score entry c w then
    if s.tierFree z tier = s.tierFree w tier then z < w else s.tierFree z tier > s.tierFree w tier
  else s.score entry c z < s.score entry c w

/-- The winner among candidates (R145). -/
def State.winner (s : State) (entry : Nat) (c : VehicleClass) (tier : List BayKind) : List Nat → Option Nat
  | [] => none
  | z :: zs =>
    match s.winner entry c tier zs with
    | none => some z
    | some w => if s.beats entry c tier z w then some z else some w

/-- The bay the winning zone gives: the lowest-numbered of the first kind of the tier it has (R146). -/
def State.tierBay (s : State) (z : Nat) : List BayKind → Option Nat
  | [] => none
  | k :: ks => if (s.freeOf z).ofKind k > 0 then s.lowestFree z k else s.tierBay z ks

/-- The selection over the passes in order (R142): a zone and a bay. -/
def State.select (s : State) (entry : Nat) (c : VehicleClass) : List (List BayKind) → Option (Nat × Nat)
  | [] => none
  | tier :: more =>
    match s.winner entry c tier (s.candidates entry tier) with
    | none => s.select entry c more
    | some z =>
      match s.tierBay z tier with
      | some b => some (z, b)
      | none => none

/-- The first empty slot above the allocation pointer, wrapping from 63 to 0 (R147 step 1). -/
def State.nextSlot (s : State) : Option Nat :=
  ((List.range 64).map fun n => (s.holdPtr + 1 + n) % 64).find? fun k => !s.holds.has k

/-- A vehicle's credit and movements for a list of zones (R140, R147 steps 5 and 6). -/
def State.traffic (s : State) (c : VehicleClass) (zs : List Nat) : State :=
  (s.creditEvent c zs).forAll zs State.movement

/-- The record of a new hold (Table 7-1). -/
def State.newHold (s : State) (p : Port) (entry zone bay : Nat) (c : VehicleClass) : Hold :=
  { bay := bay, zone := zone, entry := entry, cls := c, port := p, created := s.timebase,
    expiry := s.timebase + s.holdLifetime, route := (s.routeOf entry zone).getD [] }

/-- Create a hold: the six steps of R147. -/
def State.createHold (s : State) (slot : Nat) (h : Hold) : State :=
  let s1 := { s with holdPtr := slot, holds := s.holds.put slot h }
  let s2 := s1.writeBay h.bay fun b => { b with hold := some slot }
  let s3 := s2.forAll h.route State.raiseEscort
  s3.traffic h.cls h.route

end Sys2Proof.Machine
end

