-- ==== Sys2Proof/Machine/FieldUnit.lean ====
section
/-! DEFINITION. The field controller: node records and their handover, roll calls, the polling cycle,
probes and hangs (chapter 2). -/

namespace Sys2Proof.Machine

/-! ### Node records -/

/-- Hand a node's state change to the blocks that own its records (R26). The holds on bays it loses are
ended by `endLostHolds` at the end of the event. -/
def State.handNode (s : State) (i a : Nat) (kind : NodeKind) (old new : NodeState) : State :=
  match kind with
  | .bay => s.bayNodeChange i a new
  | .gas => s.gasNodeChange i a new
  | .drive => s.driveNodeChange i a old new
  | .lamp => s
  | .sign => s.signNodeChange i a new

/-- A node record with its confirmed value UNKNOWN if it leaves a reachable state for LOST or MISMATCH
(R26). -/
def Node.settled (old : NodeState) (n : Node) : Node :=
  if old.reachable ∧ n.state.gone then { n with confirmed := none } else n

/-- Write a node record. A change of state raises FIELD_FAULT where it enters LOST or MISMATCH and is
handed over, outside SAFE (R26). -/
def State.writeNode (s : State) (i a : Nat) (f : Node → Node) : State :=
  match s.node i a with
  | none => s
  | some old =>
    let new := (f old).settled old.state
    let t := s.onSeg i fun g => { g with nodes := g.nodes.adjust a fun _ => new }
    if s.part = .safe ∨ new.state = old.state then t
    else (if new.state.gone then t.raise .fieldFault else t).handNode i a old.kind old.state new.state

/-- Run an event of a segment: the holds of the bays it lost are ended and the free counts it changed
are handed over at its end (R58, R63, R153). -/
def fieldEvent (f : State → State) (s : State) : State := countingEvent (fun t => (f t).endLostHolds) s

/-- The fixed command of a node found in SAFE (R22). -/
def NodeKind.safeCommand : NodeKind → Option Setting
  | .drive => some (.percent 100)
  | .lamp => some (.percent 100)
  | .sign => some (.display .closed)
  | .bay | .gas => none

/-- The record SAFE keeps of an address that gave a valid reply (R46; the absent fields: log entry 26). -/
def Node.safeFound (kind : NodeKind) : Node :=
  { kind := kind, state := .present, misses := 0, cause := none, commanded := kind.safeCommand,
    confirmed := none, lastReply := none }

/-! ### The engine -/

/-- Whether a node is in its segment's cycle: reachable, and in SAFE of kind DRIVE, LAMP or SIGN (R25, R46). -/
def State.inCycle (s : State) (n : Node) : Bool :=
  n.state.reachable && (s.part != .safe || n.kind.safeCommand.isSome)

/-- The lowest address above `above` in a rising list, or the lowest of all. -/
def nextAbove (above : Nat) (addrs : List Nat) : Option Nat :=
  match addrs.find? fun a => above < a with
  | some a => some a
  | none => addrs.head?

/-- The address whose turn is next (R36). -/
def State.nextTurn (s : State) (g : Segment) : Option Nat :=
  nextAbove g.lastServed ((g.nodes.filter fun e => s.inCycle e.2).map Prod.fst)

/-- The addresses a probe may go to: LOST and MISMATCH nodes (R38), in SAFE every address not in the
cycle (R22). -/
def State.probeTargets (s : State) (g : Segment) : List Nat :=
  if s.part = .safe then
    ((List.range 62).map (· + 1)).filter fun a =>
      match g.nodes.look a with
      | some n => !s.inCycle n
      | none => true
  else (g.nodes.filter fun e => e.2.state.gone).map Prod.fst

/-- The address the next probe goes to (R38). -/
def State.probeTarget (s : State) (g : Segment) : Option Nat := nextAbove g.probePtr (s.probeTargets g)

/-- Start sending a frame (R27). -/
def Segment.send (g : Segment) (f : FieldFunction) (a : Nat) (probe : Bool) (payload : List Byte) : Segment :=
  { g with phase := .sending ⟨f, a, probe, requesterFrame a f payload⟩ }

/-- Send a recovery probe to an address, moving the probe pointer there (R38). -/
def State.sendProbe (s : State) (i a : Nat) : State :=
  s.onSeg i fun g => { g with probePtr := a, probeDue := false }.send .rollCall a true []

/-- Start discovery on a segment with a wake (R32, R44, R45). -/
def Segment.startDiscovery (g : Segment) : Segment :=
  { g with state := .discovering, phase := .wakeActive, rollCall := none, lastServed := 0, probePtr := 0,
           probeDue := false, left := false, strays := 0, hangs := 0 }

/-- The transaction ends: the line is quiet, and a due probe with no address to go to lapses (R38). -/
def State.endTransaction (s : State) (i : Nat) : State :=
  s.onSeg i fun g => { g with phase := .quiet, probeDue := g.probeDue && (s.probeTarget g).isSome }

/-- The part enters RUN once every segment in use has left discovery (R19). -/
def State.checkRun (s : State) : State :=
  if s.part = .discovering ∧ s.segs.all (fun e => !s.inUse e.1 || e.2.left) then { s with part := .run }
  else s

/-! ### Wakes and roll calls -/

/-- The active part of a wake ends (R32). -/
def State.wakeActiveEnd (s : State) (i : Nat) : State :=
  s.onSeg i fun g => match g.phase with
    | .wakeActive => { g with phase := .wakeIdle }
    | _ => g

/-- The wake ends and the roll call begins at address 1 (R32). -/
def State.wakeEnd (s : State) (i : Nat) : State :=
  s.onSeg i fun g => match g.phase with
    | .wakeIdle => { g with phase := .quiet, rollCall := some ⟨1, 0, none, []⟩ }
    | _ => g

/-- A ROLL CALL is sent: to the roll call's address, whose threshold its first attempt fixes (R33), or
in RUNNING as the recovery probe that waited for the transaction in flight (R38, log entry 9). -/
def State.rollCallSent (s : State) (i : Nat) : State :=
  let g := s.seg i
  match g.phase, g.rollCall with
  | .quiet, some rc =>
    s.onSeg i fun g => { g with rollCall := some { rc with
      threshold := some (rc.threshold.getD s.missThreshold) } }.send .rollCall rc.addr false []
  | .quiet, none =>
    if g.state = .running ∧ g.probeDue then
      match s.probeTarget g with
      | some a => s.sendProbe i a
      | none => s.onSeg i fun g => { g with probeDue := false }
    else s
  | _, _ => s

/-- Write a roll call's result to a node record (R33). -/
def Node.resolved (r : Resolved) (n : Node) : Node :=
  { n with state := r.state, misses := r.misses, cause := r.cause }

/-- Take a roll call's result for an address: held back in RECOVERING, else written (R33, R42); in SAFE
a valid reply makes the record (R46). -/
def State.resolve (s : State) (i a : Nat) (rc : RollCall) (r : Resolved) : State :=
  if (s.seg i).state = .recovering then
    s.onSeg i fun g => { g with rollCall := some { rc with results := rc.results.put a r } }
  else if s.part = .safe then s.onSeg i fun g => { g with nodes := g.nodes.put a (Node.safeFound r.kind) }
  else s.writeNode i a (Node.resolved r)

/-- Apply the results a recovery roll call held back (R43); in SAFE the records are built afresh (R46). -/
def State.applyResults (s : State) (i : Nat) (results : Table Resolved) : State :=
  if s.part = .safe then s.onSeg i fun g => { g with
      nodes := results.foldl (fun t e => Table.put t e.1 (Node.safeFound e.2.kind)) [] }
  else s.forAll results fun t e => t.writeNode i e.1 (Node.resolved e.2)

/-- The segment enters RUNNING (R35). -/
def Segment.startRunning (g : Segment) : Segment :=
  { g with state := .running, phase := .quiet, rollCall := none, lastServed := 0, probePtr := 0,
           probeDue := false, left := true }

/-- The roll call has resolved its address: the next address, or the end at address 62 (R33, R35, R43). -/
def State.nextRollCall (s : State) (i : Nat) : State :=
  let g := s.seg i
  match g.rollCall with
  | none => s
  | some rc =>
    if rc.addr < 62 then
      s.onSeg i fun g => { g with rollCall := some { rc with addr := rc.addr + 1, attempts := 0, threshold := none } }
    else
      let t := if g.state = .recovering then s.applyResults i rc.results else s
      (t.onSeg i Segment.startRunning).checkRun

/-- A valid reply's result for a configured node (R33); the failure cause is kept at PRESENT in recovery,
as R37 keeps it at a good reply (log entry 10). -/
def Node.found (n : Node) (k : NodeKind) : Resolved :=
  if k = n.kind then ⟨n.kind, .present, 0, n.cause⟩ else ⟨n.kind, .mismatch, 0, some .wrongKind⟩

/-- A valid reply naming kind `k` from address `a` in a roll call (R33, R34, R46). -/
def State.rollCallAnswer (s : State) (i a : Nat) (rc : RollCall) (k : NodeKind) : State :=
  let t :=
    if s.part = .safe then s.resolve i a rc ⟨k, .present, 0, none⟩
    else match s.node i a with
      | some n => s.resolve i a rc (n.found k)
      | none => s.onSeg i fun g => { g with strays := bump g.strays }
  t.nextRollCall i

/-- An attempt of a roll call without a valid reply (R33). -/
def State.rollCallMiss (s : State) (i a : Nat) (rc : RollCall) (c : FailureCause) : State :=
  let n := rc.attempts + 1
  if n < rc.threshold.getD 0 then
    s.onSeg i fun g => { g with rollCall := some { rc with attempts := n } }
  else
    let t := match s.node i a with
      | some r => if s.part = PartState.safe then s else s.resolve i a rc ⟨r.kind, .lost, n, some c⟩
      | none => s
    t.nextRollCall i

/-! ### Probes -/

/-- A valid reply naming kind `k` to a recovery probe (R38, R46). A node that another kind makes MISMATCH keeps its miss
count: R38 gives the count for its other two outcomes and not for this one (DESIGN CHOICE, log entry 39). -/
def State.probeAnswer (s : State) (i a : Nat) (k : NodeKind) : State :=
  if s.part = .safe then s.onSeg i fun g => { g with nodes := g.nodes.put a (Node.safeFound k) }
  else s.writeNode i a fun n =>
    if k = n.kind then { n with state := .present, misses := 0 }
    else { n with state := .mismatch, cause := some .wrongKind }

/-- A recovery probe without a valid reply (R38); in SAFE the record is left as it was (R46). -/
def State.probeMiss (s : State) (i a : Nat) (c : FailureCause) : State :=
  if s.part = .safe then s else s.writeNode i a fun n => { n with cause := some c }

/-- A recovery probe falls due (R38): sent at once where no transaction is in flight, else once it ends. -/
def State.probeFallsDue (s : State) (i : Nat) : State :=
  let g := s.seg i
  if g.state = .running then
    match g.phase with
    | .quiet =>
      match s.probeTarget g with
      | some a => s.sendProbe i a
      | none => s
    | _ => s.onSeg i fun g => { g with probeDue := true }
  else s

/-! ### Turns -/

/-- The node whose turn it is on a quiet running segment, with no due probe before it (R36, R38). -/
def State.turn (s : State) (i : Nat) : Option (Nat × Node) :=
  let g := s.seg i
  if g.state = .running ∧ g.phase = .quiet ∧ !g.probeDue then
    (s.nextTurn g).bind fun a => (g.nodes.look a).map fun n => (a, n)
  else none

/-- A POLL is sent at a BAY or GAS node's turn (R36). -/
def State.pollSent (s : State) (i : Nat) : State :=
  match s.turn i with
  | some (a, n) =>
    match n.kind with
    | .bay | .gas => s.onSeg i fun g => { g with lastServed := a }.send .poll a false []
    | .drive | .lamp | .sign => s
  | none => s

/-- A SET is sent at a DRIVE, LAMP or SIGN node's turn with the commanded value held, and the sign unit
is told the display sent (R29, R36). -/
def State.setSent (s : State) (i : Nat) : State :=
  match s.turn i with
  | some (a, n) =>
    match n.commanded with
    | some v =>
      let t := s.onSeg i fun g => { g with lastServed := a }.send .set a false v.bytes
      match v with
      | .display d => if s.part = .safe then t else t.displaySent i a d
      | .percent _ => t
    | none => s
  | none => s

/-- The last byte of the engine's frame leaves: the driver is disabled and the reply awaited (R28). -/
def State.frameEnd (s : State) (i : Nat) : State :=
  s.onSeg i fun g => match g.phase with
    | .sending tx => { g with phase := .awaiting tx }
    | _ => g

/-! ### Replies -/

/-- The transaction whose reply a segment awaits. -/
def State.awaited (s : State) (i : Nat) : Option Transaction :=
  match (s.seg i).phase with
  | .awaiting tx => some tx
  | _ => none

/-- A good reply's effect on the node record (R30, R31, R37). -/
def Node.answered (p : Payload) (n : Node) : Node :=
  { n with state := .present, misses := 0, lastReply := some p }

/-- The confirmed value a SET reply's payload carries (R30). -/
def Payload.accepted : Payload → Option Setting
  | .drive v _ _ => some (.percent v)
  | .lamp v _ => some (.percent v)
  | .sign d => some (.display d)
  | .nothing | .bay _ | .gas _ _ _ _ => none

/-- Hand a good reply's results to the owning blocks (R30, R31). -/
def State.handPayload (s : State) (i a : Nat) (p : Payload) : State :=
  if s.part = .safe then s
  else match p with
    | .nothing => s
    | .bay slots => s.bayPoll i a slots
    | .gas v0 s0 v1 s1 => s.gasPoll i a v0 s0 v1 s1
    | .drive _ st _ => s.driveReport i a st
    | .lamp _ n => s.forAll (s.lampZones i a) fun t z => t.luminaires z n
    | .sign d => s.displayShown i a d

/-- The good reply to function `f` a frame makes, if a segment awaits one and the kind is the
configured one (R28). -/
def State.goodReply (s : State) (i : Nat) (f : FieldFunction) (frame : List Byte) : Option (Nat × Payload) :=
  match s.awaited i with
  | none => none
  | some tx =>
    if tx.func = f then
      match readReply tx.addr tx.func frame, s.node i tx.addr with
      | .whole k p, some n => if k = n.kind then some (tx.addr, p) else none
      | _, _ => none
    else none

/-- A good POLL reply (R31). -/
def State.goodPoll (s : State) (i : Nat) (frame : List Byte) : State :=
  match s.goodReply i .poll frame with
  | none => s
  | some (a, p) => ((s.endTransaction i).writeNode i a (Node.answered p)).handPayload i a p

/-- A good SET reply (R30). -/
def State.goodSet (s : State) (i : Nat) (frame : List Byte) : State :=
  match s.goodReply i .set frame with
  | none => s
  | some (a, p) =>
    ((s.endTransaction i).writeNode i a fun n => { n.answered p with confirmed := p.accepted }).handPayload i a p

/-- A valid ROLL CALL reply, to a roll call or to a probe (R33, R38). -/
def State.validRollCall (s : State) (i : Nat) (frame : List Byte) : State :=
  match s.awaited i with
  | none => s
  | some tx =>
    if tx.func = .rollCall then
      match readReply tx.addr .rollCall frame with
      | .whole k _ =>
        if tx.probe then (s.probeAnswer i tx.addr k).endTransaction i
        else match (s.seg i).rollCall with
          | some rc => (s.endTransaction i).rollCallAnswer i tx.addr rc k
          | none => s.endTransaction i
      | _ => s
    else s

/-- A node's miss against the threshold held (R37). -/
def Node.missed (threshold : Nat) (c : FailureCause) (n : Node) : Node :=
  { n with misses := n.misses + 1, cause := some c,
           state := if threshold ≤ n.misses + 1 then .lost else .suspect }

/-- The transaction in flight ends in a miss (R28, R33, R37, R38). -/
def State.miss (s : State) (i : Nat) (tx : Transaction) (c : FailureCause) : State :=
  match tx.func with
  | .rollCall =>
    if tx.probe then (s.probeMiss i tx.addr c).endTransaction i
    else match (s.seg i).rollCall with
      | some rc => (s.endTransaction i).rollCallMiss i tx.addr rc c
      | none => s.endTransaction i
  | .poll | .set => (s.writeNode i tx.addr (Node.missed s.missThreshold c)).endTransaction i

/-- A reply, whole and otherwise good, names another kind than the configured one (R28). -/
def State.wrongKind (s : State) (i : Nat) (frame : List Byte) : State :=
  match s.awaited i with
  | none => s
  | some tx =>
    match tx.func with
    | .rollCall => s
    | .poll | .set =>
      match readReply tx.addr tx.func frame, s.node i tx.addr with
      | .whole k _, some n => if k = n.kind then s else s.miss i tx .wrongKind
      | _, _ => s

/-- A reply that ends the transaction as a CHECK miss (R28). -/
def State.badFrame (s : State) (i : Nat) (frame : List Byte) : State :=
  match s.awaited i with
  | none => s
  | some tx =>
    match readReply tx.addr tx.func frame with
    | .bad => s.miss i tx .check
    | .whole _ _ | .unfinished => s

/-- A gap within the reply (R28). -/
def State.gap (s : State) (i : Nat) : State :=
  match s.awaited i with
  | some tx => s.miss i tx .check
  | none => s

/-- No byte within the node reply timeout (R28). -/
def State.timeout (s : State) (i : Nat) : State :=
  match s.awaited i with
  | some tx => s.miss i tx .timeout
  | none => s

/-! ### Hangs -/

/-- Whether a segment watches its line for a hang (R39). -/
def Segment.watching (g : Segment) : Bool :=
  !g.driving && (g.state = .discovering || g.state = .running || g.state = .recovering)

/-- A segment enters HUNG: the transaction and any roll call are dropped (R39, R42). -/
def Segment.hang (g : Segment) : Segment :=
  { g with state := .hung, phase := .quiet, rollCall := none, probeDue := false, hangs := bump g.hangs, left := true }

/-- A hang is detected (R39). -/
def State.hangDetected (s : State) (i : Nat) : State :=
  if (s.seg i).watching then
    let t := s.onSeg i Segment.hang
    (if s.part = .safe then t else t.raise .fieldFault).checkRun
  else s

/-- A line test in HUNG (R40). -/
def State.idleTest (s : State) (i : Nat) (idle : Bool) : State :=
  s.onSeg i fun g =>
    if g.state = .hung ∧ idle then { g with state := .recovering, phase := .wakeActive, rollCall := none } else g

/-- 5 s of HUNG: every node not already LOST becomes LOST (R41). -/
def State.hungLoss (s : State) (i : Nat) : State :=
  if (s.seg i).state = .hung then
    s.forAll (s.seg i).nodes.places fun t a => t.writeNode i a fun n =>
      if n.state = .lost then n else { n with state := .lost, confirmed := none }
  else s

end Sys2Proof.Machine
end

