-- ==== Sys2Proof/Machine/Field.lean ====
section
/-! DEFINITION. The field segments' commands and the sign unit's clock. -/

namespace Sys2Proof.Machine

/-- WAKE_ACTIVE_END (R32). -/
def execWakeActiveEnd (seg : Fin 8) (s : State) : Host.Outcome State Fault Refusal :=
  event (fun t => t.wakeActiveEnd seg) s

/-- WAKE_END (R32). -/
def execWakeEnd (seg : Fin 8) (s : State) : Host.Outcome State Fault Refusal := event (fun t => t.wakeEnd seg) s

/-- ROLL_CALL_SENT (R33). -/
def execRollCallSent (seg : Fin 8) (s : State) : Host.Outcome State Fault Refusal :=
  event (fun t => t.rollCallSent seg) s

/-- POLL_SENT (R36). -/
def execPollSent (seg : Fin 8) (s : State) : Host.Outcome State Fault Refusal := event (fun t => t.pollSent seg) s

/-- SET_SENT (R29, R36, R167). -/
def execSetSent (seg : Fin 8) (s : State) : Host.Outcome State Fault Refusal := event (fun t => t.setSent seg) s

/-- PROBE_DUE (R38). -/
def execProbeDue (seg : Fin 8) (s : State) : Host.Outcome State Fault Refusal :=
  event (fun t => t.probeFallsDue seg) s

/-- GOOD_POLL_REPLY (R31, R37). -/
def execGoodPollReply (seg : Fin 8) (frame : List Byte) (s : State) : Host.Outcome State Fault Refusal :=
  event (fieldEvent fun t => t.goodPoll seg frame) s

/-- GOOD_SET_REPLY (R30, R37). -/
def execGoodSetReply (seg : Fin 8) (frame : List Byte) (s : State) : Host.Outcome State Fault Refusal :=
  event (fieldEvent fun t => t.goodSet seg frame) s

/-- VALID_ROLL_CALL_REPLY (R33 to R35, R38, R43, R46). -/
def execValidRollCallReply (seg : Fin 8) (frame : List Byte) (s : State) : Host.Outcome State Fault Refusal :=
  event (fieldEvent fun t => t.validRollCall seg frame) s

/-- REPLY_WRONG_KIND (R28, R37). -/
def execReplyWrongKind (seg : Fin 8) (frame : List Byte) (s : State) : Host.Outcome State Fault Refusal :=
  event (fieldEvent fun t => t.wrongKind seg frame) s

/-- REPLY_BAD_FRAME (R28, R33, R37, R38). -/
def execReplyBadFrame (seg : Fin 8) (frame : List Byte) (s : State) : Host.Outcome State Fault Refusal :=
  event (fieldEvent fun t => t.badFrame seg frame) s

/-- REPLY_GAP (R28, R33, R37, R38). -/
def execReplyGap (seg : Fin 8) (s : State) : Host.Outcome State Fault Refusal :=
  event (fieldEvent fun t => t.gap seg) s

/-- REPLY_TIMEOUT (R28, R33, R37, R38). -/
def execReplyTimeout (seg : Fin 8) (s : State) : Host.Outcome State Fault Refusal :=
  event (fieldEvent fun t => t.timeout seg) s

/-- HANG_DETECTED (R39). -/
def execHangDetected (seg : Fin 8) (s : State) : Host.Outcome State Fault Refusal :=
  event (fun t => t.hangDetected seg) s

/-- HUNG_IDLE_TEST (R40). -/
def execHungIdleTest (seg : Fin 8) (idle : Bool) (s : State) : Host.Outcome State Fault Refusal :=
  event (fun t => t.idleTest seg idle) s

/-- HUNG_NODE_LOSS (R41). -/
def execHungNodeLoss (seg : Fin 8) (s : State) : Host.Outcome State Fault Refusal :=
  event (fieldEvent fun t => t.hungLoss seg) s

/-- REQUESTER_FRAME_END (R28). -/
def execRequesterFrameEnd (seg : Fin 8) (s : State) : Host.Outcome State Fault Refusal :=
  event (fun t => t.frameEnd seg) s

/-- PACING_INTERVAL_END (R166). -/
def execPacingIntervalEnd (sign : Nat) (s : State) : Host.Outcome State Fault Refusal :=
  event (fun t => t.pacingEnd sign) s

end Sys2Proof.Machine
end

