-- ==== Sys2Proof/Machine/Image.lean ====
section
/-! DEFINITION. The site image: its framing, its sections, and the verdict of the image reader (R17, R18). -/

namespace Sys2Proof.Machine

/-- What an accepted image gives: the option block, the setpoints, and the site tables with every record
at the value its block takes when the tables are installed. -/
structure Site where
  options    : Options
  setpoints  : List Nat
  levelCount : Nat
  zones      : Table ZoneEntry
  shafts     : Table Shaft
  drives     : Table Drive
  gas        : Table GasChannel
  lamps      : Table Lamp
  bays       : Table Bay
  routes     : Table (List Nat)
  entryRamps : Table (List Nat)
  exitRamps  : Table (List Nat)
  signs      : Table Sign
deriving DecidableEq, Repr

/-- The reader's verdict (R18). -/
inductive ImageVerdict where
  | accepted (site : Site)
  | rejected (why : Rejection)
deriving DecidableEq, Repr

/-- One entry read from a section: too few bytes for it, or the index it names, the site with it taken
(none where the entry fails) and the bytes after it. -/
inductive EntryRead where
  | short
  | entry (index : Nat) (taken : Option Site) (rest : List Byte)
deriving DecidableEq, Repr

/-- The rejection of a content fault (R18). -/
def contentFault (sect : Nat) (entry : Option Nat) : Rejection := ⟨.content, some sect, entry⟩

/-! ### Conditions on entries -/

/-- Every node reference the tables have made so far, with the kind it implies (R7). -/
def Site.refs (s : Site) : List (Nat × Nat × NodeKind) :=
  (s.drives.map fun e => (e.2.seg, e.2.addr, NodeKind.drive))
  ++ (s.gas.map fun e => (e.2.seg, e.2.addr, NodeKind.gas))
  ++ (s.lamps.map fun e => (e.2.seg, e.2.addr, NodeKind.lamp))
  ++ (s.bays.map fun e => (e.2.seg, e.2.addr, NodeKind.bay))
  ++ s.signs.map fun e => (e.2.seg, e.2.addr, NodeKind.sign)

/-- Whether a node of this kind may be named by several records (R7). -/
def NodeKind.shared : NodeKind → Bool
  | .bay | .gas => true
  | .drive | .lamp | .sign => false

/-- The conditions of R7 on a node reference. -/
def Site.refOk (s : Site) (seg addr : Nat) (kind : NodeKind) : Bool :=
  decide (seg < 8) && s.options.segments.getLsbD seg && decide (1 ≤ addr) && decide (addr ≤ 62)
    && s.refs.all fun r => !(r.1 == seg && r.2.1 == addr) || (r.2.2 == kind && kind.shared)

/-- How many entries of a table meet a test. -/
def countWhere {α : Type} (t : Table α) (p : α → Bool) : Nat := (t.filter fun e => p e.2).length

/-- A list of `lo` to `hi` configured zones with none repeated. -/
def Site.zonesOk (s : Site) (lo hi : Nat) (zs : List Nat) : Bool :=
  decide (lo ≤ zs.length) && decide (zs.length ≤ hi) && zs.all s.zones.has && decide zs.Nodup

/-- A list in the image: a count byte and that many zones (R17). -/
def takeZones (bs : List Byte) : Option (List Nat × List Byte) :=
  match bs with
  | n :: rest => if n.toNat ≤ rest.length then some (zoneNumbers (rest.take n.toNat), rest.drop n.toNat) else none
  | [] => none

/-- Keep a value only where a condition holds. -/
def guarded {α : Type} (ok : Bool) (a : α) : Option α := if ok then some a else none

/-! ### The sections of entries -/

/-- A zone entry (section 3). -/
def readZoneEntry (s : Site) (_ : Nat) : List Byte → EntryRead
  | z :: l :: k :: f :: rest =>
    let shaft := if k.toNat = 255 then none else some k.toNat
    let shaftOk := match shaft with
      | none => true
      | some n => decide (n < 8) && decide (countWhere s.zones (fun e => e.shaft == some n) < 16)
    let ok := decide (z.toNat < 64) && !s.zones.has z.toNat && decide (l.toNat < s.levelCount) && shaftOk
    .entry z.toNat (guarded ok { s with zones := s.zones.put z.toNat ⟨l.toNat, shaft, clamp 0 40 f.toNat⟩ }) rest
  | _ => .short

/-- The zones of a shaft, in ascending order (R2). -/
def Site.shaftZones (s : Site) (k : Nat) : List Nat := (s.zones.filter fun e => e.2.shaft == some k).map Prod.fst

/-- A shaft entry (section 4). -/
def readShaftEntry (s : Site) (_ : Nat) : List Byte → EntryRead
  | k :: m :: bs =>
    match takeZones bs with
    | none => .short
    | some (ring, rest) =>
      let whole := decide (ring.length = (s.shaftZones k.toNat).length) && decide ring.Nodup
        && ring.all fun z => (s.shaftZones k.toNat).contains z
      let ok := decide (k.toNat < 8) && !s.shafts.has k.toNat && whole
      .entry k.toNat (match RotationMode.ofCode m.toNat with
        | some mode => guarded ok { s with shafts := s.shafts.put k.toNat ⟨mode, ring, [], 0, 0, 0, 0⟩ }
        | none => none) rest
  | _ => .short

/-- The cold record of a drive (R117). -/
def Drive.cold (duty : DriveDuty) (seg addr : Nat) : Drive := ⟨duty, seg, addr, .waiting, none⟩

/-- A drive entry (section 5). -/
def readDriveEntry (s : Site) (_ : Nat) : List Byte → EntryRead
  | d :: kind :: sg :: a :: bs =>
    let ok := decide (d.toNat < 80) && !s.drives.has d.toNat && s.refOk sg.toNat a.toNat .drive
    match kind.toNat, bs with
    | 0, k :: r :: rest =>
      let fits := s.shafts.has k.toNat && decide (1 ≤ r.toNat)
        && decide (countWhere s.drives (fun e => match e.duty with
          | .shaft k' _ => k' == k.toNat
          | .jet _ => false) < 4)
      .entry d.toNat (guarded (ok && fits)
        { s with drives := s.drives.put d.toNat (.cold (.shaft k.toNat r.toNat) sg.toNat a.toNat) }) rest
    | 1, z :: rest =>
      let fits := s.zones.has z.toNat && decide (countWhere s.drives (fun e => e.duty == .jet z.toNat) < 1)
      .entry d.toNat (guarded (ok && fits)
        { s with drives := s.drives.put d.toNat (.cold (.jet z.toNat) sg.toNat a.toNat) }) rest
    | 0, _ => .short
    | 1, _ => .short
    | _, rest => .entry d.toNat none rest
  | _ => .short

/-- A gas channel entry (section 6). -/
def readGasEntry (s : Site) (_ : Nat) : List Byte → EntryRead
  | c :: g :: z :: sg :: a :: n :: rest =>
    let ok := decide (c.toNat < 128) && !s.gas.has c.toNat && s.zones.has z.toNat && s.refOk sg.toNat a.toNat .gas
      && decide (n.toNat < 2)
      && decide (countWhere s.gas (fun e => e.seg == sg.toNat && e.addr == a.toNat && e.chan == n.toNat) < 1)
      && decide (countWhere s.gas (fun e => e.zone == z.toNat) < 16)
    .entry c.toNat (match Gas.ofCode g.toNat with
      | some gas => guarded ok
          { s with gas := s.gas.put c.toNat ⟨gas, z.toNat, sg.toNat, a.toNat, n.toNat, none, none⟩ }
      | none => none) rest
  | _ => .short

/-- A lamp channel entry (section 7). -/
def readLampEntry (s : Site) (_ : Nat) : List Byte → EntryRead
  | c :: z :: sg :: a :: rest =>
    let ok := decide (c.toNat < 64) && !s.lamps.has c.toNat && s.zones.has z.toNat && s.refOk sg.toNat a.toNat .lamp
      && decide (countWhere s.lamps (fun e => e.zone == z.toNat) < 1)
    .entry c.toNat (guarded ok { s with lamps := s.lamps.put c.toNat ⟨z.toNat, sg.toNat, a.toNat⟩ }) rest
  | _ => .short

/-- The cold record of a bay (R66). -/
def Bay.cold (zone : Nat) (kind : BayKind) (seg addr slot : Nat) (outOfUse : Bool) : Bay :=
  ⟨zone, kind, seg, addr, slot, outOfUse, .unknown, none, none, none, 0⟩

/-- A bay entry (section 8). -/
def readBayEntry (s : Site) (_ : Nat) : List Byte → EntryRead
  | b1 :: b0 :: z :: k :: sg :: a :: sl :: f :: rest =>
    let b := word16 b1 b0
    let ok := decide (b < 2048) && !s.bays.has b && s.zones.has z.toNat && s.refOk sg.toNat a.toNat .bay
      && decide (sl.toNat < 16)
      && decide (countWhere s.bays (fun e => e.seg == sg.toNat && e.addr == a.toNat && e.slot == sl.toNat) < 1)
      && decide (countWhere s.bays (fun e => e.zone == z.toNat) < 128)
    .entry b (match BayKind.ofCode k.toNat, flagOfCode f.toNat with
      | some kind, some flag => guarded ok
          { s with bays := s.bays.put b (.cold z.toNat kind sg.toNat a.toNat sl.toNat flag) }
      | _, _ => none) rest
  | _ => .short

/-- A route entry (section 9); which index it reports is open (log entry 7). -/
def readRouteEntry (s : Site) (ordinal : Nat) : List Byte → EntryRead
  | e :: z :: bs =>
    match takeZones bs with
    | none => .short
    | some (zs, rest) =>
      let place := 64 * e.toNat + z.toNat
      let ok := decide (e.toNat < 4) && s.zones.has z.toNat && !s.routes.has place && s.zonesOk 1 12 zs
        && zs.getLast? == some z.toNat
      .entry (Config.pairEntryIndex 9 ordinal e.toNat z.toNat)
        (guarded ok { s with routes := s.routes.put place zs }) rest
  | _ => .short

/-- A ramp entry (section 10); which index it reports is open (log entry 7). -/
def readRampEntry (s : Site) (ordinal : Nat) : List Byte → EntryRead
  | k :: p :: bs =>
    match takeZones bs with
    | none => .short
    | some (zs, rest) =>
      let ok := decide (p.toNat < 4) && s.zonesOk 1 8 zs
      .entry (Config.pairEntryIndex 10 ordinal k.toNat p.toNat) (match k.toNat with
        | 0 => guarded (ok && !s.entryRamps.has p.toNat) { s with entryRamps := s.entryRamps.put p.toNat zs }
        | 1 => guarded (ok && !s.exitRamps.has p.toNat) { s with exitRamps := s.exitRamps.put p.toNat zs }
        | _ => none) rest
  | _ => .short

/-- The cold record of a sign, before its target is computed (R171). -/
def Sign.cold (seg addr : Nat) (filter : SignFilter) (zones : List Nat) : Sign :=
  ⟨seg, addr, filter, zones, .full, .opened, none, none, none⟩

/-- A sign entry (section 11, R163). -/
def readSignEntry (s : Site) (_ : Nat) : List Byte → EntryRead
  | k :: sg :: a :: f :: bs =>
    match takeZones bs with
    | none => .short
    | some (zs, rest) =>
      let ok := decide (k.toNat < 48) && !s.signs.has k.toNat && s.refOk sg.toNat a.toNat .sign && s.zonesOk 1 8 zs
      .entry k.toNat (match SignFilter.ofCode f.toNat with
        | some filter => guarded ok { s with signs := s.signs.put k.toNat (.cold sg.toNat a.toNat filter zs) }
        | none => none) rest
  | _ => .short

/-! ### The body -/

/-- The entries of a section, from the given ordinal on. -/
def readEntries (sect : Nat) (read : Site → Nat → List Byte → EntryRead) :
    Nat → Nat → Site → List Byte → Except Rejection (Site × List Byte)
  | 0, _, s, bs => .ok (s, bs)
  | n + 1, ordinal, s, bs =>
    match read s ordinal bs with
    | .short => .error (contentFault sect none)
    | .entry i none _ => .error (contentFault sect (some i))
    | .entry _ (some t) rest => readEntries sect read n (ordinal + 1) t rest

/-- A section of entries: its count in two bytes and the entries (R17). -/
def readSection (sect : Nat) (read : Site → Nat → List Byte → EntryRead) (s : Site) (bs : List Byte) :
    Except Rejection (Site × List Byte) :=
  match bs with
  | hi :: lo :: rest => readEntries sect read (word16 hi lo) 0 s rest
  | _ => .error (contentFault sect none)

/-- The lowest-numbered zone that names a shaft section 4 has not configured (R18). -/
def Site.strayShaft (s : Site) : Option Nat :=
  (s.zones.find? fun e => match e.2.shaft with
    | some k => !s.shafts.has k
    | none => false).map Prod.fst

/-- The shaft fields of section 3 judged against section 4 (R18). -/
def judgeShafts (r : Site × List Byte) : Except Rejection (Site × List Byte) :=
  match r.1.strayShaft with
  | some z => .error (contentFault 3 (some z))
  | none => .ok r

/-- Sections 3 to 11 in order, ending with the body (R17, R18). -/
def readTables (s : Site) (bs : List Byte) : Except Rejection Site := do
  let r ← readSection 3 readZoneEntry s bs
  let r ← readSection 4 readShaftEntry r.1 r.2
  let r ← judgeShafts r
  let r ← readSection 5 readDriveEntry r.1 r.2
  let r ← readSection 6 readGasEntry r.1 r.2
  let r ← readSection 7 readLampEntry r.1 r.2
  let r ← readSection 8 readBayEntry r.1 r.2
  let r ← readSection 9 readRouteEntry r.1 r.2
  let r ← readSection 10 readRampEntry r.1 r.2
  let r ← readSection 11 readSignEntry r.1 r.2
  if r.2.isEmpty then .ok r.1 else .error (contentFault 11 none)

/-- The option block's eight bytes (R17). -/
def readOptions (r0 r1 r2 r3 rate silence reply segs : Byte) : Option Options :=
  match Role.ofCode r0.toNat, Role.ofCode r1.toNat, Role.ofCode r2.toNat, Role.ofCode r3.toNat,
    BitRate.ofCode rate.toNat, SilenceTimeout.ofCode silence.toNat, ReplyTimeout.ofCode reply.toNat with
  | some a, some b, some c, some d, some br, some st, some rt => some ⟨⟨a, b, c, d⟩, br, st, rt, segs⟩
  | _, _, _, _, _, _, _ => none

/-- The values of a list of two-byte fields. -/
def words : List Byte → List Nat
  | hi :: lo :: rest => word16 hi lo :: words rest
  | _ => []

/-- Sections 1 and 2, then the tables. -/
def readFrom1 (o : Options) (bs : List Byte) : Except Rejection Site :=
  match bs with
  | [] => .error (contentFault 1 none)
  | n :: rest =>
    if n.toNat > 38 ∨ rest.length < 2 * n.toNat then .error (contentFault 1 none)
    else match rest.drop (2 * n.toNat) with
      | [] => .error (contentFault 2 none)
      | l :: tables =>
        if 1 ≤ l.toNat ∧ l.toNat ≤ 8 then
          readTables ⟨o, loadSetpoints (words (rest.take (2 * n.toNat))), l.toNat, [], [], [], [], [], [], [], [], [], []⟩
            tables
        else .error (contentFault 2 none)

/-- The body of an image: its sections 0 to 11 (Table 1-6). -/
def readBody (bs : List Byte) : Except Rejection Site :=
  match bs with
  | a :: b :: c :: d :: e :: f :: g :: h :: rest =>
    match readOptions a b c d e f g h with
    | some o => readFrom1 o rest
    | none => .error (contentFault 0 none)
  | _ => .error (contentFault 0 none)

/-- The body judged: the verdict of the reader's last phase (R18). -/
def judgeBody (bs : List Byte) : ImageVerdict :=
  match readBody bs with
  | .ok site => .accepted site
  | .error why => .rejected why

/-- The check bytes of an image (Table 1-5). -/
def checkBytes (image : List Byte) : Nat :=
  match image.drop (image.length - 2) with
  | [hi, lo] => word16 hi lo
  | _ => 65536

/-- What the reader puts on the bus in a read that goes as `r` says: the header is always read for; the rest is read
for where the header came, with the format code and a length of 32 or more (R18). -/
def imageReads (r : ImageRead) : List BusRead :=
  match r.headerAck, r.bytes with
  | true, f1 :: f0 :: l1 :: l0 :: _ =>
    if word16 f1 f0 ≠ 0x5A2E ∨ word16 l1 l0 < 32 then [headerRead] else [headerRead, restRead (word16 l1 l0)]
  | _, _ => [headerRead]

/-- The verdict of the image reader's three phases (R18). A memory that ends before the image does is
read as one that stops acknowledging (log entry 11). -/
def imageVerdict (r : ImageRead) : ImageVerdict :=
  if r.headerAck then
    match r.bytes with
    | f1 :: f0 :: l1 :: l0 :: _ =>
      let length := word16 l1 l0
      if word16 f1 f0 ≠ 0x5A2E ∨ length < 32 then .rejected ⟨.format, none, none⟩
      else if !r.restAck || decide (r.bytes.length < length) then .rejected ⟨.missing, none, none⟩
      else
        let image := r.bytes.take length
        if sumNat (image.take (length - 2)) % 65536 = checkBytes image then
          judgeBody ((image.take (length - 2)).drop 4)
        else .rejected ⟨.check, none, none⟩
    | _ => .rejected ⟨.missing, none, none⟩
  else .rejected ⟨.missing, none, none⟩

end Sys2Proof.Machine
end

