-- ==== Sys2Proof/Machine/StartUp.lean ====
section
/-! DEFINITION. Cold reset, the installation of the tables, SAFE and the warm restart (section 1.6 and
the reset rules of every chapter). -/

namespace Sys2Proof.Machine

/-! ### Cold reset -/

/-- The RESET pin is taken low: every block at its cold-reset value (R19, R21). The commands still to
come are kept, and nothing of the image is read while the pin is low. -/
def State.coldReset (s : State) : State :=
  { State.reset with resetLow := true, imageBus := [], pending := s.pending }

/-- The RESET pin is released: the part does its work again, in LOADING, and the image read begins from byte 0
(R18, R21). A pin that is high cannot be released. -/
def State.resetReleased (s : State) : State :=
  if s.resetLow then { s with resetLow := false, imageBus := [headerRead] } else s

/-! ### Records at the installation -/

/-- The commanded value of a configured node at a cold reset (R44). -/
def NodeKind.coldCommand : NodeKind → Option Setting
  | .bay | .gas => none
  | .drive => some (.percent 0)
  | .lamp => some (.percent 100)
  | .sign => some (.display .blank)

/-- A configured node's record at the installation (R44). -/
def Node.cold (kind : NodeKind) : Node :=
  { kind := kind, state := .expected, misses := 0, cause := none, commanded := kind.coldCommand,
    confirmed := none, lastReply := none }

/-- The node records of a segment, from the references of the tables (R7). -/
def Site.segNodes (s : Site) (i : Nat) : Table Node :=
  (s.refs.filter fun r => r.1 == i).foldl (fun t r => t.put r.2.1 (Node.cold r.2.2)) []

/-- The segments at the installation: those in use start discovery, the others are OFF (R44). -/
def Site.segments (s : Site) : Table Segment :=
  (List.range 8).map fun i =>
    (i, if s.options.segments.getLsbD i then { Segment.stopped with nodes := s.segNodes i }.startDiscovery
        else .stopped)

/-- A zone's air record at the installation (R88). -/
def AirZone.cold (hasChannels : Bool) : AirZone :=
  { index := 0, smooth := 0, credit := 0, demand := 0, binSum := 0, binCount := 0,
    ring := List.replicate 15 none, writePos := 0, a15 := none, peak := false, dose := false, loss := false,
    lossStart := if hasChannels then some 0 else none, graceDue := false }

/-- A zone's ventilation record at the installation (R117). -/
def VentZone.cold (e : ZoneEntry) : VentZone :=
  { computed := 0, dwell := 0, alarmMin := 0, wanted := 0, want := e.baseFlow, floor := e.baseFlow,
    alloc := e.shaft.map fun _ => 0, effective := 0, jetFault := false }

/-- A zone's status record at the installation (R136). -/
def ZoneStatus.cold : ZoneStatus := ⟨⟨false, false, false⟩, none, none, false⟩

/-- A zone's lighting record at a reset, before its level is found (R182). -/
def State.lightCold (s : State) : LightZone :=
  { state := .standby, deadline := some (s.timebase + s.standbyHold), escorts := 0, level := 0,
    line := .standby, capped := false, failed := none }

/-- A port at the installation of the tables: its role, the rights of the role, and no frame partly
received at the old rate (R19, R196). -/
def PortRecord.installed (role : Role) (p : PortRecord) : PortRecord :=
  { p with role := some role, rights := role.rights, rx := if p.rx = .receiving then .idle else p.rx }

/-- The four ports with the roles of the option block. -/
def Options.ports (o : Options) (q : Quad PortRecord) : Quad PortRecord :=
  ⟨q.s0.installed o.roles.s0, q.s1.installed o.roles.s1, q.s2.installed o.roles.s2, q.s3.installed o.roles.s3⟩

/-- One record for each configured place of a table. -/
def derive {α β : Type} (t : Table α) (f : Nat → α → β) : Table β := t.map fun e => (e.1, f e.1 e.2)

/-- The zones' records, written into a state that holds the tables. -/
def State.installZones (s : State) (site : Site) : State :=
  { s with
    free := derive site.zones fun _ _ => ⟨0, 0, 0, 0⟩
    air := derive site.zones fun z _ => .cold (site.gas.any fun e => e.2.zone == z)
    vent := derive site.zones fun _ e => .cold e
    status := derive site.zones fun _ _ => .cold
    escorts := derive site.zones fun _ _ => 0
    lights := derive site.zones fun _ _ => s.lightCold }

/-- The tables installed and the blocks at their cold values (R19), before anything is written to a node. -/
def State.withTables (s : State) (site : Site) : State :=
  let t := { s with
    part := .discovering
    rate := site.options.rate
    options := some site.options
    levelCount := site.levelCount
    setpoints := site.setpoints
    zones := site.zones
    lamps := site.lamps
    routes := site.routes
    entryRamps := site.entryRamps
    exitRamps := site.exitRamps
    segs := site.segments
    bays := site.bays
    gas := site.gas
    drives := site.drives
    shafts := site.shafts
    signs := site.signs
    ports := site.options.ports s.ports
    notices := ⟨.installed site.options.roles.s0, .installed site.options.roles.s1,
                .installed site.options.roles.s2, .installed site.options.roles.s3⟩ }
  t.installZones site

/-- The image is accepted (R19): levels and targets are found and written at once, discovery starts, and
with no segment in use the part enters RUN (R171, R182). -/
def State.install (s : State) (site : Site) : State := (s.withTables site).relightAll.retargetAll.checkRun

/-- A port in SAFE (R22, R196). -/
def PortRecord.safe (p : PortRecord) : PortRecord :=
  { p with role := some .view, rights := Role.view.rights, locked := false, errors := 0, overruns := 0 }

/-- The image is rejected: the record is held and SAFE begins on all eight segments (R18, R22). -/
def State.enterSafe (s : State) (why : Rejection) : State :=
  { s with
    part := .safe
    rejection := some why
    segs := s.segs.each fun _ _ => Segment.stopped.startDiscovery
    ports := s.ports.each PortRecord.safe }

/-- The image read ends in LOADING: what the reader sent is held, and the verdict is acted on (R18, R19). -/
def State.imageReadDone (s : State) (r : ImageRead) : State :=
  if s.part = .loading then
    let t := { s with imageBus := imageReads r }
    match imageVerdict r with
    | .accepted site => t.install site
    | .rejected why => t.enterSafe why
  else s

/-! ### Warm restart -/

/-- A node at a warm restart (R45). -/
def Node.restarted (n : Node) : Node :=
  { n with state := .expected, misses := 0, cause := none, confirmed := none, lastReply := none }

/-- A segment in use at a warm restart (R45). -/
def Segment.restarted (g : Segment) : Segment :=
  { g with nodes := g.nodes.each fun _ n => n.restarted }.startDiscovery

/-- A bay at a warm restart (R67). -/
def Bay.restarted (b : Bay) : Bay := { b with occ := .unknown, raw := none, deadline := none, hold := none }

/-- A zone's air record at a warm restart (R89). -/
def AirZone.restarted (now : Nat) (hasChannels : Bool) (a : AirZone) : AirZone :=
  { a with lossStart := if hasChannels then some now else a.lossStart, graceDue := false }

/-- A shaft at a warm restart (R118). -/
def Shaft.restarted (k : Shaft) : Shaft := { k with taken := [], rating := 0, capacity := 0, flow := 0, speed := 0 }

/-- A zone's ventilation record at a warm restart, its override record cleared already (R118). -/
def State.ventRestarted (s : State) (z : Nat) (v : VentZone) : VentZone :=
  let w := s.figured z { v with jetFault := false }
  match s.shaftOf z with
  | some _ => { w with alloc := some 0, effective := s.supported w.wanted 0 }
  | none => { w with alloc := none, effective := s.supported w.wanted w.want }

/-- A sign at a warm restart, before its target is found (R171). -/
def Sign.restarted (g : Sign) : Sign := { g with pacing := .opened, lastSent := none, lastSend := none, shown := none }

/-- The blocks' warm values, before the wanted stages, levels and targets are found afresh. -/
def State.blocksRestarted (s : State) : State :=
  { s with
    part := .discovering
    restarts := bump s.restarts
    segs := s.segs.each fun i g => if s.inUse i then g.restarted else g
    bays := s.bays.each fun _ b => b.restarted
    free := s.free.each fun _ _ => ⟨0, 0, 0, 0⟩
    gas := s.gas.each fun _ c => { c with status := none }
    air := s.air.each fun z a => a.restarted s.timebase (s.gas.any fun e => e.2.zone == z)
    drives := s.drives.each fun _ d => { d with avail := .waiting, reported := none }
    shafts := s.shafts.each fun _ k => k.restarted
    status := s.status.each fun _ r => r.cleared
    lapse := .watching
    lapseHolds := false
    holds := []
    holdPtr := 63
    escorts := s.escorts.each fun _ _ => 0
    ends := .all ⟨[], false⟩
    signs := s.signs.each fun _ g => g.restarted
    lights := s.lights.each fun _ _ => s.lightCold
    ports := s.ports.each fun p => { p with lastRequest := s.timebase }
    notices := s.notices.each NoticeRecord.restarted }

/-- A warm restart (R23), up to the check that a segment in use is still to be discovered. -/
def State.warmRestart (s : State) : State :=
  let t := s.blocksRestarted
  ({ t with vent := t.vent.each t.ventRestarted }).relightAll.retargetAll

end Sys2Proof.Machine
end

