-- ==== Sys2Proof/Machine/Reset.lean ====
section
/-! DEFINITION. The start-up commands. -/

namespace Sys2Proof.Machine

/-- COLD_RESET (R19, R21). -/
def execColdReset (s : State) : Host.Outcome State Fault Refusal := .next s.coldReset

/-- RESET_RELEASED (R21): only a low pin can be released. -/
def execResetReleased (s : State) : Host.Outcome State Fault Refusal := .next s.resetReleased

/-- IMAGE_READ_DONE (R18, R19, R22). -/
def execImageReadDone (r : ImageRead) (s : State) : Host.Outcome State Fault Refusal :=
  event (fun t => t.imageReadDone r) s

end Sys2Proof.Machine
end

