-- ==== Sys2Proof/Decode.lean ====
section
/-! DEFINITION. The decoding of commands. The table's rows give no bits, so no word spells a command
(`decodeTableWord`); the requests have a byte coding of their own (R184, Table 10-5), read here and
written by the encoder after it. -/

namespace Sys2Proof

open Machine

/-- The command a word of the table's bits spells: none, because no row of the table has bits. -/
def decodeTableWord (_nbits _w : Nat) : Option Instr := none

/-! ### Requests -/

/-- What a request's code and argument bytes amount to (R187 checks 1 and 2). -/
inductive RequestReading where
  | request (i : Instr)
  | unknownCommand
  | badLength
deriving DecidableEq, Repr

/-- No argument. -/
def fields0 (i : Instr) : List Byte → Option Instr
  | [] => some i
  | _ => none

/-- One one-byte field. -/
def fields1 (f : Byte → Instr) : List Byte → Option Instr
  | [a] => some (f a)
  | _ => none

/-- Two one-byte fields. -/
def fields2 (f : Byte → Byte → Instr) : List Byte → Option Instr
  | [a, b] => some (f a b)
  | _ => none

/-- Three one-byte fields. -/
def fields3 (f : Byte → Byte → Byte → Instr) : List Byte → Option Instr
  | [a, b, c] => some (f a b c)
  | _ => none

/-- A two-byte field, most significant byte first (R184). -/
def wordOf (hi lo : Byte) : BitVec 16 := hi ++ lo

/-- Three one-byte fields and a setpoint value, which takes two bytes (R184). -/
def fields3Setpoint (f : Byte → Byte → Byte → BitVec 16 → Instr) : List Byte → Option Instr
  | [a, b, c, hi, lo] => some (f a b c (wordOf hi lo))
  | _ => none

/-- A list of one-byte fields after its count byte (R184). -/
def listItems : List Byte → Option (List Byte)
  | n :: items => if items.length = n.toNat then some items else none
  | [] => none

/-- A one-byte field and a list. -/
def listAfter1 (f : Byte → List Byte → Instr) : List Byte → Option Instr
  | a :: rest => (listItems rest).map (f a)
  | _ => none

/-- Two one-byte fields and a list. -/
def listAfter2 (f : Byte → Byte → List Byte → Instr) : List Byte → Option Instr
  | a :: b :: rest => (listItems rest).map (f a b)
  | _ => none

/-- The items of a list of (setpoint number, value) pairs. -/
def pairItems : List Byte → Option (List (Byte × BitVec 16))
  | [] => some []
  | n :: hi :: lo :: rest => (pairItems rest).map ((n, wordOf hi lo) :: ·)
  | _ => none

/-- A list of pairs after its count byte. -/
def pairList (f : List (Byte × BitVec 16) → Instr) : List Byte → Option Instr
  | n :: rest =>
    match pairItems rest with
    | some pairs => if pairs.length = n.toNat then some (f pairs) else none
    | none => none
  | [] => none

/-- A slot and a bay. -/
def slotBay (f : Byte → BitVec 16 → Instr) : List Byte → Option Instr
  | [a, hi, lo] => some (f a (wordOf hi lo))
  | _ => none

/-- A bay and two one-byte fields. -/
def bayFields2 (f : BitVec 16 → Byte → Byte → Instr) : List Byte → Option Instr
  | [hi, lo, a, b] => some (f (wordOf hi lo) a b)
  | _ => none

/-- How a presence byte is read: 0 absent, 1 present, another as the manual leaves open (R184, log entry 6). -/
def presence (b : Byte) : PresenceReading :=
  if b = 0 then .absent else if b = 1 then .present else Config.strayPresence b

/-- An optional one-byte field. -/
def optional1 (f : Option Byte → Instr) : List Byte → Option Instr
  | [b] => if presence b = .absent then some (f none) else none
  | [b, a] => if presence b = .present then some (f (some a)) else none
  | _ => none

/-- The request a code names, with its argument bytes read: no value where the code names none, an
empty one where the bytes do not fit the request (Table 10-5). SET ZONE's base flow is a setpoint (R1), so
it takes two bytes (R184, log entry 31). -/
def readArguments (p : Port) (code : Nat) (args : List Byte) : Option (Option Instr) :=
  match code with
  | 0x01 => some (fields0 (.readStatus p) args)
  | 0x02 => some (fields0 (.readOptions p) args)
  | 0x03 => some (fields1 (.readZone p) args)
  | 0x04 => some (fields0 (.readFreeCounts p) args)
  | 0x05 => some (fields2 (.readBays p) args)
  | 0x06 => some (fields1 (.readHolds p) args)
  | 0x07 => some (fields0 (.readHoldEnds p) args)
  | 0x08 => some (fields1 (.readShaft p) args)
  | 0x09 => some (fields2 (.readNode p) args)
  | 0x0A => some (fields1 (.readSegment p) args)
  | 0x0B => some (fields1 (.readSign p) args)
  | 0x0C => some (fields1 (.readDose p) args)
  | 0x20 => some (fields2 (.entry p) args)
  | 0x21 => some (fields2 (.exit p) args)
  | 0x22 => some (fields3 (.requestBay p) args)
  | 0x23 => some (slotBay (.releaseHold p) args)
  | 0x30 => some (pairList (.setSetpoints p) args)
  | 0x31 => some (fields3Setpoint (.setZone p) args)
  | 0x32 => some (bayFields2 (.setBay p) args)
  | 0x33 => some (listAfter2 (.setRoute p) args)
  | 0x34 => some (listAfter2 (.setRamp p) args)
  | 0x35 => some (listAfter2 (.setSign p) args)
  | 0x36 => some (listAfter1 (.setRing p) args)
  | 0x37 => some (fields1 (.setLast p) args)
  | 0x38 => some (fields2 (.setRotation p) args)
  | 0x40 => some (fields2 (.overrideStage p) args)
  | 0x41 => some (fields2 (.overrideLight p) args)
  | 0x42 => some (fields2 (.holdOut p) args)
  | 0x43 => some (fields1 (.closeZone p) args)
  | 0x44 => some (fields1 (.openZone p) args)
  | 0x45 => some (fields1 (.supply p) args)
  | 0x50 => some (fields1 (.smoke p) args)
  | 0x51 => some (fields0 (.smokeClear p) args)
  | 0x60 => some (fields2 (.setRights p) args)
  | 0x61 => some (fields1 (.lockRights p) args)
  | 0x62 => some (fields2 (.setRouting p) args)
  | 0x63 => some (fields1 (.setNoticeMask p) args)
  | 0x64 => some (fields1 (.setAutoAck p) args)
  | 0x65 => some (fields0 (.restart p) args)
  | 0x70 => some (fields0 (.pollNotice p) args)
  | 0x71 => some (optional1 (.ackNotice p) args)
  | _ => none

/-- The reading of a request's code and arguments (R187 checks 1 and 2). -/
def decodeRequest (p : Port) (code : Byte) (args : List Byte) : RequestReading :=
  match readArguments p code.toNat args with
  | some (some i) => .request i
  | some none => .badLength
  | none => .unknownCommand

/-! ### Frames -/

/-- A whole station frame's command code, arguments and check verdict (Table 10-2). -/
structure StationFrame where
  code  : Byte
  args  : List Byte
  valid : Bool
deriving DecidableEq, Repr

/-- Read a whole request frame: start byte, a length of 1 to 256 that the bytes agree with, and a check. -/
def readStationFrame (frame : List Byte) : Option StationFrame :=
  match frame with
  | start :: hi :: lo :: code :: rest =>
    if start = 0xC3#8 ∧ 1 ≤ word16 hi lo ∧ word16 hi lo ≤ 256 ∧ rest.length = word16 hi lo then
      some ⟨code, rest.dropLast, sumBytes frame.dropLast == frame.getLastD 0⟩
    else none
  | _ => none

/-! ### The encoder -/

/-- The bytes of a two-byte field. -/
def wordBytes (w : BitVec 16) : List Byte := [w.extractLsb' 8 8, w.extractLsb' 0 8]

/-- A list with its count byte. -/
def countedBytes (items : List Byte) : List Byte := BitVec.ofNat 8 items.length :: items

/-- The bytes of a list of pairs. -/
def pairBytes (pairs : List (Byte × BitVec 16)) : List Byte := pairs.flatMap fun p => p.1 :: wordBytes p.2

/-- The port, code and argument bytes of a request; none for a command that is not a request. -/
def encodeRequest : Instr → Option (Port × Byte × List Byte)
  | .readStatus p => some (p, 0x01, [])
  | .readOptions p => some (p, 0x02, [])
  | .readZone p z => some (p, 0x03, [z])
  | .readFreeCounts p => some (p, 0x04, [])
  | .readBays p z n => some (p, 0x05, [z, n])
  | .readHolds p n => some (p, 0x06, [n])
  | .readHoldEnds p => some (p, 0x07, [])
  | .readShaft p k => some (p, 0x08, [k])
  | .readNode p g a => some (p, 0x09, [g, a])
  | .readSegment p g => some (p, 0x0A, [g])
  | .readSign p k => some (p, 0x0B, [k])
  | .readDose p z => some (p, 0x0C, [z])
  | .entry p e c => some (p, 0x20, [e, c])
  | .exit p e c => some (p, 0x21, [e, c])
  | .requestBay p e c k => some (p, 0x22, [e, c, k])
  | .releaseHold p n b => some (p, 0x23, n :: wordBytes b)
  | .setSetpoints p ps => some (p, 0x30, BitVec.ofNat 8 ps.length :: pairBytes ps)
  | .setZone p z l k f => some (p, 0x31, [z, l, k] ++ wordBytes f)
  | .setBay p b k f => some (p, 0x32, wordBytes b ++ [k, f])
  | .setRoute p e z zs => some (p, 0x33, e :: z :: countedBytes zs)
  | .setRamp p k e zs => some (p, 0x34, k :: e :: countedBytes zs)
  | .setSign p k f zs => some (p, 0x35, k :: f :: countedBytes zs)
  | .setRing p k zs => some (p, 0x36, k :: countedBytes zs)
  | .setLast p z => some (p, 0x37, [z])
  | .setRotation p k m => some (p, 0x38, [k, m])
  | .overrideStage p z n => some (p, 0x40, [z, n])
  | .overrideLight p z n => some (p, 0x41, [z, n])
  | .holdOut p z f => some (p, 0x42, [z, f])
  | .closeZone p z => some (p, 0x43, [z])
  | .openZone p z => some (p, 0x44, [z])
  | .supply p c => some (p, 0x45, [c])
  | .smoke p l => some (p, 0x50, [l])
  | .smokeClear p => some (p, 0x51, [])
  | .setRights p q r => some (p, 0x60, [q, r])
  | .lockRights p q => some (p, 0x61, [q])
  | .setRouting p q c => some (p, 0x62, [q, c])
  | .setNoticeMask p c => some (p, 0x63, [c])
  | .setAutoAck p c => some (p, 0x64, [c])
  | .restart p => some (p, 0x65, [])
  | .pollNotice p => some (p, 0x70, [])
  | .ackNotice p none => some (p, 0x71, [0])
  | .ackNotice p (some c) => some (p, 0x71, [1, c])
  | .coldReset | .resetReleased | .imageReadDone _ | .secondEvent | .minuteClose | .settleInComplete _
  | .settleOutComplete _ | .holdExpiry | .activeDeadline _ | .standbyDeadline _ | .sensorGraceExpiry _
  | .overrideLapse | .wakeActiveEnd _ | .wakeEnd _ | .rollCallSent _ | .pollSent _ | .setSent _ | .probeDue _
  | .goodPollReply _ _ | .goodSetReply _ _ | .validRollCallReply _ _ | .replyWrongKind _ _ | .replyBadFrame _ _
  | .replyGap _ | .replyTimeout _ | .hangDetected _ | .hungIdleTest _ _ | .hungNodeLoss _ | .pacingIntervalEnd _
  | .stationBadLength _ _ | .stationGapTimeout _ | .discardQuietEnd _ | .stationFrameComplete _ _ | .replySent _
  | .stationStartByte _ | .requesterFrameEnd _ => none

end Sys2Proof
end

