-- ==== Sys2Proof/Machine/PortUnit.lean ====
section
/-! DEFINITION. The port unit: the taking of a request, its checks, and its reply (chapter 10). -/

namespace Sys2Proof.Machine

/-- The six rights (R189). -/
inductive Right where
  | read | lane | config | override | fire | admin
deriving DecidableEq, Repr

/-- Whether a rights set holds a right. -/
def Rights.has (r : Rights) : Right → Bool
  | .read => r.read
  | .lane => r.lane
  | .config => r.config
  | .override => r.override
  | .fire => r.fire
  | .admin => r.admin

/-- Status codes (Table 10-4). -/
inductive Status where
  | ok | notPermitted | unknownCommand | badLength | outOfRange | badList | closed | noBay | holdsFull
  | noHold | starting | safe | locked
deriving DecidableEq, Repr

/-- A status code's number (Table 10-4). -/
def Status.code : Status → Nat
  | .ok => 0 | .notPermitted => 1 | .unknownCommand => 2 | .badLength => 3 | .outOfRange => 4 | .badList => 5
  | .closed => 6 | .noBay => 7 | .holdsFull => 8 | .noHold => 9 | .starting => 10 | .safe => 11 | .locked => 12

/-- A row of the command catalogue: its code and its right (Table 10-5). -/
structure Catalogued where
  code  : Byte
  right : Right
deriving DecidableEq, Repr

/-- What a serving block does with a request: a refusal, or the state it leaves and the reply's data,
built from the state that stands at the end of the event (R188). -/
inductive Served where
  | refused (why : Status)
  | served (after : State) (data : State → List Byte)

/-- The frame of a reply (Table 10-2). -/
def stationReply (code : Byte) (status : Status) (data : List Byte) : List Byte :=
  let body := u8 0x3C ++ u16 (2 + data.length) ++ [code] ++ u8 status.code ++ data
  body ++ [sumBytes body]

/-- The frame of a request (Table 10-2). -/
def stationRequest (code : Byte) (args : List Byte) : List Byte :=
  let body := u8 0xC3 ++ u16 (1 + args.length) ++ [code] ++ args
  body ++ [sumBytes body]

/-- The transmitter starts sending a reply at the port's bit rate (R188). -/
def State.send (s : State) (p : Port) (code : Byte) (status : Status) (data : List Byte) : State :=
  s.onPort p fun r => { r with tx := some ⟨stationReply code status data, s.rate⟩ }

/-- A request is taken: the last request time is set, and a port that holds OVERRIDE ends the lapse
condition (R187, R193). -/
def State.taken (s : State) (p : Port) : State :=
  let t := s.onPort p fun r => { r with rx := .idle, lastRequest := s.timebase }
  if (s.ports.at p).rights.override then t.lapseEnds else t

/-- The checks 3 to 6 of R187; READ STATUS passes in every part state, in LOADING without its right. -/
def State.gate (s : State) (p : Port) (c : Catalogued) : Option Status :=
  if s.part = .loading then if c.code = 0x01 then none else some .starting
  else if s.part = .safe ∧ c.code ≠ 0x01 then some .safe
  else if !(s.ports.at p).rights.has c.right then some .notPermitted
  else if s.part = .discovering ∧ c.code ≠ 0x01 then some .starting
  else none

/-- Serve a taken request that has passed its code and length checks (R187, R188). The free counts the
request changed are handed over before the reply is built (R63). -/
def State.serve (s : State) (p : Port) (c : Catalogued) (block : State → Served) : State :=
  match s.gate p c with
  | some why => s.send p c.code why []
  | none =>
    match block s with
    | .refused why => s.send p c.code why []
    | .served t data =>
      let u := State.handCounts s t
      u.send p c.code .ok (data u)

/-- A valid frame's last byte at a port: discarded in DISCARDING, an overrun while SENDING, else taken
(R185, R186). -/
def State.arrival (s : State) (p : Port) (f : State → State) : State :=
  if (s.ports.at p).rx = .discarding then s
  else if (s.ports.at p).tx.isSome then
    s.onPort p fun r => { r with rx := .idle, overruns := bump r.overruns }
  else f (s.taken p)

/-- A request of the catalogue arriving in a whole and valid frame at a port (log entry 12). -/
def request (p : Port) (c : Catalogued) (block : State → Served) (s : State) : Host.Outcome State Fault Refusal :=
  event (fun s => s.arrival p fun t => t.serve p c block) s

/-- Refuse unless a condition holds, else go on. -/
def demand (ok : Bool) (why : Status) (next : Served) : Served := if ok then next else .refused why

/-- A request that changes no state: its reply's data is read from the state as it stands. -/
def answers (s : State) (data : List Byte) : Served := .served s fun _ => data

end Sys2Proof.Machine
end

