-- ==== Sys2Proof/Machine/Reads.lean ====
section
/-! DEFINITION. The requests that read: READ STATUS to READ DOSE. The order of a reply's fields is the
order its rule names them; the coding is R184's (log entry 13 lists the widths the manual leaves to be
inferred). -/

namespace Sys2Proof.Machine

/-! ### READ STATUS and READ OPTIONS -/

/-- The rejection record's fields (R18). -/
def Rejection.fields (r : Rejection) : List Byte := u8 r.cause.code ++ optional r.sect u8 ++ optional r.entry u16

/-- The smoke mode record's fields: standing or not, and the fire level or absent (R135). -/
def smokeFields (smoke : Option Nat) : List Byte := flagField smoke.isSome ++ optional smoke u8

/-- The site part (R135). -/
def State.sitePart (s : State) : List Byte := u8 s.supply.code ++ smokeFields s.smoke ++ u8 s.lapse.code

/-- One port's part of READ STATUS (R194): absent before a role is in force. -/
def State.portPart (s : State) (p : Port) : List Byte :=
  let r := s.ports.at p
  optional r.role fun role =>
    u8 role.code ++ [r.rights.byte] ++ flagField r.locked ++ u16 r.errors ++ u16 r.overruns ++ u32 (s.silence p)

/-- The data of READ STATUS (R194). That the timebase value is present in SAFE is the model's choice (log entry 29). -/
def State.statusData (s : State) : List Byte :=
  u8 s.part.code ++ u16 s.restarts
    ++ optional (if s.part = .loading then none else some s.timebase) u32
    ++ optional s.rejection Rejection.fields
    ++ optional (if s.part = .discovering ∨ s.part = .run then some s else none) State.sitePart
    ++ allPorts.flatMap s.portPart

def readStatusRow : Catalogued := ⟨0x01, .read⟩

def serveReadStatus (s : State) : Served := answers s s.statusData

/-- READ_STATUS (R194). -/
def execReadStatus (port : Port) (s : State) : Host.Outcome State Fault Refusal :=
  request port readStatusRow serveReadStatus s

/-- The option block's five fields (R8), coded as R17 codes them. -/
def Options.fields (o : Options) : List Byte :=
  o.roles.toList.flatMap (fun r => u8 r.code) ++ u8 o.rate.code ++ u8 o.silence.code ++ u8 o.reply.code ++ [o.segments]

def readOptionsRow : Catalogued := ⟨0x02, .read⟩

def serveReadOptions (s : State) : Served :=
  answers s (match s.options with
    | some o => o.fields
    | none => [])

/-- READ_OPTIONS (R8). -/
def execReadOptions (port : Port) (s : State) : Host.Outcome State Fault Refusal :=
  request port readOptionsRow serveReadOptions s

/-! ### READ ZONE -/

/-- The status part (R135). -/
def State.zoneStatusPart (s : State) (z : Nat) : List Byte :=
  let r := s.statusOf z
  u8 (s.levelOf z) ++ [r.closure.byte] ++ flagField r.closure.isOpen ++ optional r.forcedStage u8
    ++ optional r.forcedLight u8 ++ flagField r.holdOut

/-- One gas channel in the air part (R86). -/
def State.channelPart (s : State) (n : Nat) (c : GasChannel) : List Byte :=
  u8 n ++ u8 c.gas.code ++ flagField (s.chanValid c) ++ optional c.reading u16
    ++ optional c.status fun st => u8 st.code

/-- The air part (R86). -/
def State.airPart (s : State) (z : Nat) : List Byte :=
  match s.air.look z with
  | none => []
  | some a =>
    u16 a.index ++ u16 a.smooth ++ u16 a.credit ++ u16 a.demand ++ wordOr16 a.a15 ++ flagField a.peak
      ++ flagField a.dose ++ flagField a.loss ++ optional a.lossStart (fun t => u32 (s.timebase - t))
      ++ listField (s.zoneChannels z) fun e => s.channelPart e.1 e.2

/-- A stage as it is read: SMOKE while smoke mode stands (R112). -/
def State.stageRead (s : State) (n : Nat) : List Byte := word8 (if s.inSmoke then none else some n)

/-- A commanded or confirmed percentage, or UNKNOWN (R184). -/
def percentRead (v : Option Setting) : List Byte :=
  match v with
  | some (.percent n) => u8 n
  | _ => word8 none

/-- The commanded value of a node. -/
def State.commandedOf (s : State) (i a : Nat) : Option Setting := (s.node i a).bind Node.commanded

/-- The confirmed value of a node. -/
def State.confirmedOf (s : State) (i a : Nat) : Option Setting := (s.node i a).bind Node.confirmed

/-- The JET drive of a zone (R3). -/
def State.jetOf (s : State) (z : Nat) : Option (Nat × Drive) := s.drives.find? fun e => e.2.duty.ofJet z

/-- The JET drive's group in the ventilation part (R116). -/
def State.jetFields (s : State) (e : Nat × Drive) : List Byte :=
  u8 e.1 ++ u8 e.2.avail.code ++ percentRead (s.commandedOf e.2.seg e.2.addr)

/-- The ventilation part (R116). -/
def State.ventPart (s : State) (z : Nat) : List Byte :=
  match s.vent.look z with
  | none => []
  | some v =>
    let r := s.statusOf z
    s.stageRead v.computed ++ u32 (s.timebase - v.dwell) ++ u8 v.alarmMin ++ optional r.forcedStage u8
      ++ flagField r.holdOut ++ flagField (s.holdOutApplied z v.alarmMin) ++ s.stageRead v.wanted ++ u8 v.want
      ++ u8 v.floor ++ word8 (s.shaftOf z) ++ wordOr16 v.alloc ++ s.stageRead v.effective
      ++ optional (s.jetOf z) s.jetFields ++ flagField v.jetFault

/-- The guidance part (R160). -/
def State.guidancePart (s : State) (z : Nat) : List Byte :=
  u8 (s.escortOf z) ++ u8 (s.holds.filter fun e => e.2.zone == z).length ++ u8 (s.airBand z)

/-- The lamp fields of the lighting part (R181). -/
def State.lampFields (s : State) (e : Nat × Lamp) : List Byte :=
  u8 e.1 ++ u8 (s.nodeState e.2.seg e.2.addr).code ++ percentRead (s.confirmedOf e.2.seg e.2.addr)

/-- The lighting part (R181). -/
def State.lightPart (s : State) (z : Nat) : List Byte :=
  match s.lights.look z with
  | none => []
  | some l =>
    u8 l.state.code ++ optional l.deadline (fun d => u16 (d - s.timebase)) ++ u8 l.escorts ++ u8 l.level
      ++ u8 l.line.code ++ flagField l.capped ++ optional (s.lampOf z) s.lampFields ++ optional l.failed u8

/-- The data of READ ZONE: the zone number and the five parts (R195). -/
def State.zoneData (s : State) (z : Nat) : List Byte :=
  u8 z ++ s.zoneStatusPart z ++ s.airPart z ++ s.ventPart z ++ s.guidancePart z ++ s.lightPart z

def readZoneRow : Catalogued := ⟨0x03, .read⟩

def serveReadZone (zone : Byte) (s : State) : Served :=
  demand (s.zones.has zone.toNat) .outOfRange <| answers s (s.zoneData zone.toNat)

/-- READ_ZONE (R195). -/
def execReadZone (port : Port) (zone : Byte) (s : State) : Host.Outcome State Fault Refusal :=
  request port readZoneRow (serveReadZone zone) s

/-! ### READ FREE COUNTS and READ BAYS -/

/-- A zone's counts in READ FREE COUNTS (R65). -/
def State.countFields (s : State) (z : Nat) : List Byte :=
  let c := s.freeOf z
  u8 z ++ u8 c.standard ++ u8 c.wide ++ u8 c.charger ++ u8 c.accessible ++ u8 c.total

/-- The free totals of every configured zone. -/
def State.totals (s : State) : Table Nat := s.zoneList.map fun z => (z, (s.freeOf z).total)

/-- A port's notice record after READ FREE COUNTS (R198). -/
def NoticeRecord.baselined (totals : Table Nat) (r : NoticeRecord) : NoticeRecord :=
  { r with baseline := some totals, pending := setDrop r.pending .bayChange }.reevaluate

def readFreeCountsRow : Catalogued := ⟨0x04, .read⟩

def serveReadFreeCounts (port : Port) (s : State) : Served :=
  .served (s.onNotice port (NoticeRecord.baselined s.totals)) fun _ => listField s.zoneList s.countFields

/-- READ_FREE_COUNTS (R65, R198). -/
def execReadFreeCounts (port : Port) (s : State) : Host.Outcome State Fault Refusal :=
  request port readFreeCountsRow (serveReadFreeCounts port) s

/-- One bay in READ BAYS (R64). -/
def State.bayFields (s : State) (e : Nat × Bay) : List Byte :=
  u16 e.1 ++ u8 e.2.kind.code ++ flagField e.2.outOfUse ++ u8 e.2.occ.code
    ++ optional e.2.raw (fun v => u8 v.code) ++ optional e.2.hold u8
    ++ optional e.2.deadline (fun d => u8 (d - s.timebase)) ++ u16 e.2.glitches

def readBaysRow : Catalogued := ⟨0x05, .read⟩

def serveReadBays (zone start : Byte) (s : State) : Served :=
  let bays := s.zoneBays zone.toNat
  demand (s.zones.has zone.toNat) .outOfRange <|
  demand (decide (start.toNat < bays.length) || (start.toNat == 0 && bays.isEmpty)) .outOfRange <|
  answers s (u8 bays.length ++ listField ((bays.drop start.toNat).take 16) s.bayFields)

/-- READ_BAYS (R64). -/
def execReadBays (port : Port) (zone start : Byte) (s : State) : Host.Outcome State Fault Refusal :=
  request port readBaysRow (serveReadBays zone start) s

/-! ### READ HOLDS and READ HOLD ENDS -/

/-- One hold in READ HOLDS (R159). -/
def State.holdFields (s : State) (e : Nat × Hold) : List Byte :=
  let kind := match s.bays.look e.2.bay with
    | some b => b.kind.code
    | none => 0
  u8 e.1 ++ u16 e.2.bay ++ u8 kind ++ u8 e.2.zone ++ u8 e.2.entry ++ u8 e.2.cls.code ++ u8 (portNumber e.2.port)
    ++ timeField e.2.created ++ u16 (e.2.expiry - s.timebase) ++ zoneListField e.2.route

def readHoldsRow : Catalogued := ⟨0x06, .read⟩

def serveReadHolds (start : Byte) (s : State) : Served :=
  demand (decide (start.toNat < 64)) .outOfRange <|
  answers s (u8 s.holds.length
    ++ listField ((s.holds.filter fun e => decide (start.toNat ≤ e.1)).take 8) s.holdFields)

/-- READ_HOLDS (R159). -/
def execReadHolds (port : Port) (start : Byte) (s : State) : Host.Outcome State Fault Refusal :=
  request port readHoldsRow (serveReadHolds start) s

/-- One entry of a hold end list (R157). -/
def EndEntry.fields (e : EndEntry) : List Byte :=
  u8 e.slot ++ u16 e.bay ++ u8 e.zone ++ u8 e.cause.code ++ u16 e.age

def readHoldEndsRow : Catalogued := ⟨0x07, .read⟩

/-- The list read and emptied. That the number of entries R158 names is the list's own count byte is the model's choice
(log entry 34). -/
def serveReadHoldEnds (port : Port) (s : State) : Served :=
  let l := s.ends.at port
  .served { s with ends := s.ends.adjust port fun _ => ⟨[], false⟩ } fun _ =>
    flagField l.overflow ++ listField l.entries EndEntry.fields

/-- READ_HOLD_ENDS (R158). -/
def execReadHoldEnds (port : Port) (s : State) : Host.Outcome State Fault Refusal :=
  request port readHoldEndsRow (serveReadHoldEnds port) s

/-! ### READ SHAFT -/

/-- One SHAFT drive in READ SHAFT (R115). -/
def State.shaftDriveFields (s : State) (e : Nat × Drive) : List Byte :=
  let rated := match e.2.duty with
    | .shaft _ r => r
    | .jet _ => 0
  u8 e.1 ++ u8 rated ++ u8 e.2.avail.code ++ optional e.2.reported (fun r => u8 r.code)
    ++ percentRead (s.commandedOf e.2.seg e.2.addr) ++ percentRead (s.confirmedOf e.2.seg e.2.addr)

/-- One zone in READ SHAFT (R115). -/
def State.shaftZoneFields (s : State) (z : Nat) : List Byte :=
  match s.vent.look z with
  | none => []
  | some v =>
    u8 z ++ s.stageRead v.wanted ++ u8 v.want ++ u8 v.floor ++ wordOr16 v.alloc ++ s.stageRead v.effective

/-- The data of READ SHAFT (R115). -/
def State.shaftData (s : State) (n : Nat) (k : Shaft) : List Byte :=
  u8 k.mode.code ++ zoneListField k.ring ++ zoneListField (k.ring.filter fun z => k.taken.contains z)
    ++ u16 k.rating ++ u16 k.capacity ++ u16 k.flow ++ u8 k.speed
    ++ listField (s.drives.filter fun e => e.2.duty.ofShaft n) s.shaftDriveFields
    ++ listField k.ring s.shaftZoneFields

def readShaftRow : Catalogued := ⟨0x08, .read⟩

def serveReadShaft (shaft : Byte) (s : State) : Served :=
  match s.shafts.look shaft.toNat with
  | none => .refused .outOfRange
  | some k => answers s (s.shaftData shaft.toNat k)

/-- READ_SHAFT (R115). -/
def execReadShaft (port : Port) (shaft : Byte) (s : State) : Host.Outcome State Fault Refusal :=
  request port readShaftRow (serveReadShaft shaft) s

/-! ### READ NODE and READ SEGMENT -/

/-- The confirmed value of a node of a kind, or UNKNOWN in the kind's width (R184). -/
def confirmedFields (kind : NodeKind) (v : Option Setting) : List Byte :=
  match v with
  | some c => c.bytes
  | none => if kind = .sign then wordOr16 none else word8 none

/-- The commanded and confirmed values of a DRIVE, LAMP or SIGN node (R48). -/
def Node.settingFields (n : Node) : List Byte :=
  match n.commanded with
  | some v => v.bytes ++ confirmedFields n.kind n.confirmed
  | none => []

/-- The data of READ NODE (R48). -/
def Node.fields (n : Node) : List Byte :=
  u8 n.kind.code ++ u8 n.state.code ++ u8 n.misses ++ optional n.cause (fun c => u8 c.code)
    ++ optional n.lastReply Payload.bytes ++ n.settingFields

def readNodeRow : Catalogued := ⟨0x09, .read⟩

def serveReadNode (seg address : Byte) (s : State) : Served :=
  demand (decide (seg.toNat < 8) && decide (1 ≤ address.toNat) && decide (address.toNat ≤ 62)) .outOfRange <|
  answers s (match s.node seg.toNat address.toNat with
    | some n => n.fields
    | none => u8 0)

/-- READ_NODE (R48). -/
def execReadNode (port : Port) (seg address : Byte) (s : State) : Host.Outcome State Fault Refusal :=
  request port readNodeRow (serveReadNode seg address) s

/-- How many of a segment's nodes stand in a state (R47). -/
def Segment.countIn (g : Segment) (st : NodeState) : Nat := (g.nodes.filter fun e => e.2.state == st).length

/-- The data of READ SEGMENT (R47). That the five counts go in the order of Table 2-2 is read by inference (log entry 13). -/
def Segment.fields (g : Segment) : List Byte :=
  u8 g.state.code ++ u16 g.strays ++ u16 g.hangs
    ++ [NodeState.expected, .present, .suspect, .lost, .mismatch].flatMap fun st => u8 (g.countIn st)

def readSegmentRow : Catalogued := ⟨0x0A, .read⟩

def serveReadSegment (seg : Byte) (s : State) : Served :=
  demand (decide (seg.toNat < 8)) .outOfRange <| answers s (s.seg seg.toNat).fields

/-- READ_SEGMENT (R47). -/
def execReadSegment (port : Port) (seg : Byte) (s : State) : Host.Outcome State Fault Refusal :=
  request port readSegmentRow (serveReadSegment seg) s

/-! ### READ SIGN and READ DOSE -/

/-- A display, or UNKNOWN (R184). -/
def displayOr16 (d : Option Display) : List Byte := wordOr16 (d.map Display.code)

/-- The commanded display of a sign's node. -/
def State.commandedDisplay (s : State) (g : Sign) : Option Display :=
  match s.commandedOf g.seg g.addr with
  | some (.display d) => some d
  | _ => none

/-- The data of READ SIGN (R170). -/
def State.signData (s : State) (g : Sign) : List Byte :=
  u8 g.seg ++ u8 g.addr ++ u8 (s.nodeState g.seg g.addr).code ++ displayOr16 (s.commandedDisplay g)
    ++ u8 g.filter.code ++ zoneListField g.zones ++ u16 g.target.code ++ u8 g.pacing.code
    ++ optional g.lastSent (fun d => u16 d.code) ++ optional g.lastSend (fun t => u32 (s.timebase - t))
    ++ displayOr16 g.shown

def readSignRow : Catalogued := ⟨0x0B, .read⟩

def serveReadSign (sign : Byte) (s : State) : Served :=
  match s.signs.look sign.toNat with
  | none => .refused .outOfRange
  | some g => answers s (s.signData g)

/-- READ_SIGN (R170). -/
def execReadSign (port : Port) (sign : Byte) (s : State) : Host.Outcome State Fault Refusal :=
  request port readSignRow (serveReadSign sign) s

/-- The data of READ DOSE: the ring from its write position, the open bin, A15, DOSE and its two
setpoints (R85). That the fifteen bins carry no count byte is the model's choice (log entry 30). -/
def State.doseData (s : State) (a : AirZone) : List Byte :=
  (a.ring.drop a.writePos ++ a.ring.take a.writePos).flatMap wordOr16
    ++ u16 a.binCount ++ wordOr16 a.binMean ++ wordOr16 a.a15 ++ flagField a.dose ++ u16 s.doseLimit ++ u16 s.doseClear

def readDoseRow : Catalogued := ⟨0x0C, .read⟩

def serveReadDose (zone : Byte) (s : State) : Served :=
  match s.air.look zone.toNat with
  | none => .refused .outOfRange
  | some a => answers s (s.doseData a)

/-- READ_DOSE (R85). -/
def execReadDose (port : Port) (zone : Byte) (s : State) : Host.Outcome State Fault Refusal :=
  request port readDoseRow (serveReadDose zone) s

end Sys2Proof.Machine
end

