-- ==== Sys2Proof/Machine/Admin.lean ====
section
/-! DEFINITION. The requests of administration and notices (R23, sections 10.4 and 11). -/

namespace Sys2Proof.Machine

/-- The port a request names, or the refusal of an index above 3. -/
def withPort (named : Byte) (next : Port → Served) : Served :=
  match portOfNumber named.toNat with
  | some q => next q
  | none => .refused .outOfRange

/-- A rights set made legal for a role: FIRE at a FIRE port and at no other (R189, R190). -/
def Rights.legal (role : Option Role) (r : Rights) : Rights := { r with fire := role == some .fire }

/-- The stored set ends the lapse condition where it gives OVERRIDE to a port that is not silent (R190, R193). -/
def State.storeRights (s : State) (q : Port) (rights : Rights) : State :=
  let legal := rights.legal (s.ports.at q).role
  let t := s.onPort q fun r => { r with rights := legal }
  if legal.override && decide (s.silence q < s.silenceLimit) then t.lapseEnds else t

def setRightsRow : Catalogued := ⟨0x60, .admin⟩

def serveSetRights (named rights : Byte) (s : State) : Served :=
  withPort named fun q =>
    demand (!rights.getLsbD 6 && !rights.getLsbD 7) .outOfRange <|
    demand (!(s.ports.at q).locked) .locked <|
    .served (s.storeRights q (Rights.ofByte rights)) fun t => [named, (t.ports.at q).rights.byte]

/-- SET_RIGHTS (R190). -/
def execSetRights (port : Port) (named rights : Byte) (s : State) : Host.Outcome State Fault Refusal :=
  request port setRightsRow (serveSetRights named rights) s

def lockRightsRow : Catalogued := ⟨0x61, .admin⟩

def serveLockRights (named : Byte) (s : State) : Served :=
  withPort named fun q =>
    .served (s.onPort q fun r => { r with locked := true }) fun t =>
      [named, (t.ports.at q).rights.byte] ++ flagField (t.ports.at q).locked

/-- LOCK_RIGHTS (R191). -/
def execLockRights (port : Port) (named : Byte) (s : State) : Host.Outcome State Fault Refusal :=
  request port lockRightsRow (serveLockRights named) s

def setRoutingRow : Catalogued := ⟨0x62, .admin⟩

def serveSetRouting (named classes : Byte) (s : State) : Served :=
  withPort named fun q =>
    .served (s.onNotice q fun r => { r with routing := classes }) fun t => [(t.notices.at q).routing]

/-- SET_ROUTING (R202). -/
def execSetRouting (port : Port) (named classes : Byte) (s : State) : Host.Outcome State Fault Refusal :=
  request port setRoutingRow (serveSetRouting named classes) s

def setNoticeMaskRow : Catalogued := ⟨0x63, .read⟩

def serveSetNoticeMask (port : Port) (classes : Byte) (s : State) : Served :=
  .served (s.onNotice port fun r => { r with mask := classes }.reevaluate) fun t => [(t.notices.at port).mask]

/-- SET_NOTICE_MASK (R202). -/
def execSetNoticeMask (port : Port) (classes : Byte) (s : State) : Host.Outcome State Fault Refusal :=
  request port setNoticeMaskRow (serveSetNoticeMask port classes) s

def setAutoAckRow : Catalogued := ⟨0x64, .read⟩

def serveSetAutoAck (port : Port) (code : Byte) (s : State) : Served :=
  match flagOfCode code.toNat with
  | none => .refused .outOfRange
  | some v =>
    .served (s.onNotice port fun r => { r with autoAck := v }) fun t => flagField (t.notices.at port).autoAck

/-- SET_AUTO_ACK (R202). -/
def execSetAutoAck (port : Port) (code : Byte) (s : State) : Host.Outcome State Fault Refusal :=
  request port setAutoAckRow (serveSetAutoAck port code) s

def restartRow : Catalogued := ⟨0x65, .admin⟩

/-- The reply carries DISCOVERING, the state the restart enters (R23, log entry 14). -/
def serveRestart (s : State) : Served :=
  demand (!s.inSmoke) .locked <|
  .served s.warmRestart.checkRun fun t => u16 t.restarts ++ u8 PartState.discovering.code

/-- RESTART (R23). -/
def execRestart (port : Port) (s : State) : Host.Outcome State Fault Refusal :=
  request port restartRow serveRestart s

/-- A port's notice record after a poll returns a class (R200). -/
def NoticeRecord.polled (c : NoticeClass) (r : NoticeRecord) : NoticeRecord :=
  { r with pending := setDrop r.pending c, taken := if r.autoAck then r.taken else setAdd r.taken c }.reevaluate

/-- A notice class, or NONE (Table 10-6). -/
def noticeField (c : Option NoticeClass) : List Byte :=
  match c with
  | some c => u8 c.priority
  | none => u8 8

def pollNoticeRow : Catalogued := ⟨0x70, .read⟩

def servePollNotice (port : Port) (s : State) : Served :=
  match topQualifying (s.notices.at port) with
  | none => answers s (noticeField none)
  | some c => .served (s.onNotice port (NoticeRecord.polled c)) fun _ => noticeField (some c)

/-- POLL_NOTICE (R200). -/
def execPollNotice (port : Port) (s : State) : Host.Outcome State Fault Refusal :=
  request port pollNoticeRow (servePollNotice port) s

/-- A port's notice record after a class is acknowledged (R201). -/
def NoticeRecord.acknowledged (c : NoticeClass) (r : NoticeRecord) : NoticeRecord :=
  { r with taken := setDrop r.taken c }.reevaluate

/-- The taken set after the event (R201). -/
def State.takenData (port : Port) (s : State) : List Byte := [(s.notices.at port).taken]

/-- A class acknowledged at a port, or none. -/
def State.acknowledge (s : State) (port : Port) (c : Option NoticeClass) : State :=
  match c with
  | some c => s.onNotice port (NoticeRecord.acknowledged c)
  | none => s

def ackNoticeRow : Catalogued := ⟨0x71, .read⟩

def serveAckNotice (port : Port) (cls : Option Byte) (s : State) : Served :=
  match cls with
  | none => .served (s.acknowledge port (topOf (s.notices.at port).taken)) (State.takenData port)
  | some code =>
    match NoticeClass.ofCode code.toNat with
    | none => .refused .outOfRange
    | some c => .served (s.acknowledge port (some c)) (State.takenData port)

/-- ACK_NOTICE (R201). -/
def execAckNotice (port : Port) (cls : Option Byte) (s : State) : Host.Outcome State Fault Refusal :=
  request port ackNoticeRow (serveAckNotice port cls) s

end Sys2Proof.Machine
end

