-- ==== Sys2Proof/Machine/Edits.lean ====
section
/-! DEFINITION. The requests that edit tables and setpoints (sections 1.3, 1.4, 5.6, 8.4). -/

namespace Sys2Proof.Machine

/-! ### SET SETPOINTS -/

/-- Whether the held value of one of some setpoints differs from an earlier set's. -/
def State.spChanged (s : State) (old : List Nat) (ns : List Nat) : Bool :=
  ns.any fun n => spOf old n != s.sp n

/-- F1 to F4, J1 to J4 and the drive minimum speed (Table 1-4). -/
def flowSetpoints : List Nat := [19, 20, 21, 22, 23, 24, 25, 26, 27]

/-- The zones with SENSOR_LOSS set. -/
def State.lossZones (s : State) : List Nat :=
  s.zoneList.filter fun z => match s.air.look z with
    | some a => a.loss
    | none => false

/-- Recompute the figures of some zones from the setpoints held, without recomputing any shaft. -/
def State.refigure (s : State) (zs : List Nat) : State :=
  s.forAll zs fun t z => t.onVent z fun v => t.figured z (t.withAlarm z v)

/-- The shafts a setpoint change reaches: all of them, or those of the zones with SENSOR_LOSS set, for each of which a
change of the fail-safe stage is treated as a change of wanted stage (Table 1-4, R93, R100; log entry 33). -/
def State.touchedShafts (s : State) (all failSafe : Bool) : List Nat :=
  s.shafts.places.filter fun n => all || failSafe && s.lossZones.any fun z => s.shaftOf z == some n

/-- The zones with no shaft that a setpoint change reaches: all of them, or those with SENSOR_LOSS set (Table 1-4, R95). -/
def State.touchedLone (s : State) (all failSafe : Bool) : List Nat :=
  (if all then s.zoneList else if failSafe then s.lossZones else []).filter fun z => (s.shaftOf z).isNone

/-- Ventilation's part of Table 1-4 outside smoke mode: figures, capacities, then each shaft and lone
zone reached recomputed once. -/
def State.setpointsToVent (s : State) (flows failSafe capacity : Bool) : State :=
  let s1 := s.refigure (if flows then s.zoneList else if failSafe then s.lossZones else [])
  let s2 := if capacity then s1.forAll s1.shafts.places State.refreshCapacity else s1
  (s2.forAll (s2.touchedShafts (flows || capacity) failSafe) State.recomputeShaft).forAll
    (s2.touchedLone flows failSafe) State.recomputeLone

/-- Ventilation's part of Table 1-4 while smoke mode stands (R113): alarm minima, A and C for reading,
and the smoke jet speed at the fire level. -/
def State.setpointsInSmoke (s : State) (level : Nat) (failSafe capacity jet : Bool) : State :=
  let s1 := if failSafe then s.forAll s.lossZones fun t z => t.onVent z (t.withAlarm z) else s
  let s2 := if capacity then s1.forAll s1.shafts.places State.refreshCapacity else s1
  if jet then s2.forAll (s2.zoneList.filter fun z => s2.levelOf z == level) (fun t z => t.writeSmokeJet level z)
  else s2

/-- A change of the held set reaches the blocks that use it at once (R11, Table 1-4). -/
def State.setpointsHanded (s : State) (old : List Nat) : State :=
  let flows := s.spChanged old flowSetpoints
  let failSafe := s.spChanged old [18]
  let capacity := s.supply == .restricted && s.spChanged old [28]
  let t := match s.smoke with
    | some level => s.setpointsInSmoke level failSafe capacity (s.spChanged old [29])
    | none => if flows || failSafe || capacity then s.setpointsToVent flows failSafe capacity else s
  if s.spChanged old [32, 33, 34] then t.relightAll else t

/-- The pairs as numbers. -/
def pairNumbers (pairs : List (Byte × BitVec 16)) : List (Nat × Nat) := pairs.map fun p => (p.1.toNat, p.2.toNat)

def setSetpointsRow : Catalogued := ⟨0x30, .config⟩

/-- SET SETPOINTS at its block (R10, R11). That the reply's 38 values carry no count byte is the model's choice (log
entry 30). -/
def serveSetSetpoints (pairs : List (Byte × BitVec 16)) (s : State) : Served :=
  demand (pairs.all fun p => decide (p.1.toNat ≤ 37)) .outOfRange <|
  demand (!pairs.isEmpty) .badList <|
  .served ({ s with setpoints := writeSetpoints s.setpoints (pairNumbers pairs) }.setpointsHanded s.setpoints)
    fun t => t.setpoints.flatMap u16

/-- SET_SETPOINTS (R10, R11). -/
def execSetSetpoints (port : Port) (pairs : List (Byte × BitVec 16)) (s : State) : Host.Outcome State Fault Refusal :=
  request port setSetpointsRow (serveSetSetpoints pairs) s

/-! ### SET ZONE -/

/-- A shaft field, which may hold NONE (R184). -/
def shaftField (b : Byte) : Option Nat := if b.toNat = 255 then none else some b.toNat

/-- The allocation of a zone that has just changed shaft, before the recomputation: NONE with no shaft
(R111), 0 in smoke mode (R113). -/
def VentZone.moved (new : Option Nat) (v : VentZone) : VentZone := { v with alloc := new.map fun _ => 0 }

/-- A shaft's recomputation outside smoke mode, if there is a shaft. -/
def State.recomputeOption (s : State) (n : Option Nat) : State :=
  match n with
  | some k => s.recomputeShaft k
  | none => s

/-- A zone's new place among the shafts (R13, R111). -/
def State.moveZone (s : State) (z : Nat) (old new : Option Nat) : State :=
  let t := ((s.leaveShaft z old).joinShaft z new).onVent z (VentZone.moved new)
  if t.inSmoke then t
  else ((t.onVent z (t.figured z)).recomputeOption old).recomputeFor z

/-- A zone's record replaced and the change handed on (R13). -/
def State.storeZone (s : State) (z : Nat) (old new : ZoneEntry) : State :=
  let t := { s with zones := s.zones.adjust z fun _ => new }
  let u :=
    if old.shaft ≠ new.shaft then t.moveZone z old.shaft new.shaft
    else if old.baseFlow ≠ new.baseFlow ∧ !t.inSmoke then (t.onVent z (t.figured z)).recomputeFor z
    else t
  match u.smoke with
  | some fire => if old.level ≠ new.level then u.writeSmokeJet fire z else u
  | none => u

/-- A zone entry as the reply shows it: which fields it has is the model's choice (log entry 32). The base flow is a
setpoint (R1), so it takes two bytes (R184, log entry 31). -/
def State.zoneEntryData (s : State) (z : Nat) : List Byte :=
  match s.zones.look z with
  | some e => u8 z ++ u8 e.level ++ word8 e.shaft ++ u16 e.baseFlow
  | none => []

/-- Whether a shaft field names NONE or a configured shaft. -/
def State.shaftFieldOk (s : State) (shaft : Byte) : Bool :=
  match shaftField shaft with
  | some k => s.shafts.has k
  | none => true

/-- Whether a zone may take a place on a shaft: its present one, or one with fewer than 16 zones (R13). -/
def State.roomFor (s : State) (present new : Option Nat) : Bool :=
  match new with
  | some k => new == present || decide ((s.shaftZones k).length < 16)
  | none => true

def setZoneRow : Catalogued := ⟨0x31, .config⟩

def serveSetZone (zone level shaft : Byte) (baseFlow : BitVec 16) (s : State) : Served :=
  match s.zones.look zone.toNat with
  | none => .refused .outOfRange
  | some old =>
    demand (decide (level.toNat < s.levelCount)) .outOfRange <|
    demand (s.shaftFieldOk shaft) .outOfRange <|
    demand (s.roomFor old.shaft (shaftField shaft)) .badList <|
    .served (s.storeZone zone.toNat old ⟨level.toNat, shaftField shaft, clamp 0 40 baseFlow.toNat⟩) fun t =>
      t.zoneEntryData zone.toNat

/-- SET_ZONE (R13, R111). -/
def execSetZone (port : Port) (zone level shaft : Byte) (baseFlow : BitVec 16) (s : State) :
    Host.Outcome State Fault Refusal :=
  request port setZoneRow (serveSetZone zone level shaft baseFlow) s

/-! ### SET BAY -/

/-- A bay's kind and flag stored, and a live hold ended where the flag is newly set (R14, R59). -/
def State.storeBay (s : State) (b : Nat) (old : Bay) (kind : BayKind) (flag : Bool) : State :=
  let t := s.writeBay b fun r => { r with kind := kind, outOfUse := flag }
  match old.hold with
  | some slot => if flag && !old.outOfUse then t.endHold slot .outOfUse else t
  | none => t

/-- A bay's attributes as the reply shows them; which fields it has is the model's choice (log entry 32). -/
def State.bayEntryData (s : State) (b : Nat) : List Byte :=
  match s.bays.look b with
  | some r => u16 b ++ u8 r.kind.code ++ flagField r.outOfUse
  | none => []

def setBayRow : Catalogued := ⟨0x32, .config⟩

def serveSetBay (bay : BitVec 16) (kind outOfUse : Byte) (s : State) : Served :=
  match s.bays.look bay.toNat, BayKind.ofCode kind.toNat, flagOfCode outOfUse.toNat with
  | some old, some k, some flag =>
    .served (s.storeBay bay.toNat old k flag) fun t => t.bayEntryData bay.toNat
  | _, _, _ => .refused .outOfRange

/-- SET_BAY (R14, R59). -/
def execSetBay (port : Port) (bay : BitVec 16) (kind outOfUse : Byte) (s : State) :
    Host.Outcome State Fault Refusal :=
  request port setBayRow (serveSetBay bay kind outOfUse) s

/-! ### SET ROUTE and SET RAMP -/

/-- Whether every zone of a list is configured. -/
def State.listed (s : State) (zs : List Nat) : Bool := zs.all s.zones.has

/-- A pair's route stored, or removed by an empty list (R15). -/
def State.storeRoute (s : State) (entry target : Nat) (zs : List Nat) : State :=
  if zs.isEmpty then { s with routes := s.routes.remove (routePlace entry target) }
  else { s with routes := s.routes.put (routePlace entry target) zs }

def setRouteRow : Catalogued := ⟨0x33, .config⟩

/-- SET ROUTE at its block (R15). Which fields the reply has is the model's choice (log entry 32). -/
def serveSetRoute (point target : Byte) (zones : List Byte) (s : State) : Served :=
  let zs := zoneNumbers zones
  demand (s.entryRamps.has point.toNat) .outOfRange <|
  demand (s.zones.has target.toNat) .outOfRange <|
  demand (decide (zs.length ≤ 12)) .badList <|
  demand (s.listed zs) .outOfRange <|
  demand (zs.isEmpty || (decide zs.Nodup && zs.getLast? == some target.toNat)) .badList <|
  .served (s.storeRoute point.toNat target.toNat zs) fun t =>
    u8 point.toNat ++ u8 target.toNat ++ zoneListField ((t.routeOf point.toNat target.toNat).getD [])

/-- SET_ROUTE (R15). -/
def execSetRoute (port : Port) (point target : Byte) (zones : List Byte) (s : State) :
    Host.Outcome State Fault Refusal :=
  request port setRouteRow (serveSetRoute point target zones) s

/-- The conditions of R16 on a ramp list, then the ramp stored. -/
def storeRamp (s : State) (zs : List Nat) (after : State) (data : List Byte) : Served :=
  demand (s.listed zs) .outOfRange <|
  demand (!zs.isEmpty && decide (zs.length ≤ 8) && decide zs.Nodup) .badList <|
  .served after fun _ => data

def setRampRow : Catalogued := ⟨0x34, .config⟩

/-- SET RAMP at its block (R16). Which fields the reply has is the model's choice (log entry 32). -/
def serveSetRamp (pointKind point : Byte) (zones : List Byte) (s : State) : Served :=
  let zs := zoneNumbers zones
  let data := u8 pointKind.toNat ++ u8 point.toNat ++ zoneListField zs
  demand (decide (point.toNat < 4)) .outOfRange <|
  match pointKind.toNat with
  | 0 => storeRamp s zs { s with entryRamps := s.entryRamps.put point.toNat zs } data
  | 1 => storeRamp s zs { s with exitRamps := s.exitRamps.put point.toNat zs } data
  | _ => .refused .outOfRange

/-- SET_RAMP (R16). -/
def execSetRamp (port : Port) (pointKind point : Byte) (zones : List Byte) (s : State) :
    Host.Outcome State Fault Refusal :=
  request port setRampRow (serveSetRamp pointKind point zones) s

/-! ### SET SIGN -/

/-- A sign's filter, zone list and target as the reply shows them (R169). -/
def State.signEntryData (s : State) (k : Nat) : List Byte :=
  match s.signs.look k with
  | some g => u8 g.filter.code ++ zoneListField g.zones ++ u16 g.target.code
  | none => []

def setSignRow : Catalogued := ⟨0x35, .config⟩

def serveSetSign (sign filter : Byte) (zones : List Byte) (s : State) : Served :=
  let zs := zoneNumbers zones
  demand (s.signs.has sign.toNat) .outOfRange <|
  match SignFilter.ofCode filter.toNat with
  | none => .refused .outOfRange
  | some f =>
    demand (!zs.isEmpty && decide (zs.length ≤ 8)) .badList <|
    demand (s.listed zs) .outOfRange <|
    demand (decide zs.Nodup) .badList <|
    .served ((s.onSign sign.toNat fun g => { g with filter := f, zones := zs }).retarget sign.toNat) fun t =>
      t.signEntryData sign.toNat

/-- SET_SIGN (R169). -/
def execSetSign (port : Port) (sign filter : Byte) (zones : List Byte) (s : State) :
    Host.Outcome State Fault Refusal :=
  request port setSignRow (serveSetSign sign filter zones) s

/-! ### SET RING, SET LAST and SET ROTATION -/

/-- A shaft's ring as the reply shows it. -/
def State.ringData (s : State) (n : Nat) : List Byte :=
  match s.shafts.look n with
  | some k => zoneListField k.ring
  | none => []

/-- A ring replaced by another, which is a ring change unless they are equal (R109, R110). -/
def State.replaceRing (s : State) (n : Nat) (old new : List Nat) : State :=
  if new = old then s else s.ringChange n new

/-- Whether a list is a permutation of a shaft's zones (R110). -/
def State.permutes (s : State) (n : Nat) (zs : List Nat) : Bool :=
  decide (zs.length = (s.shaftZones n).length) && decide zs.Nodup && zs.all fun z => (s.shaftZones n).contains z

def setRingRow : Catalogued := ⟨0x36, .config⟩

def serveSetRing (shaft : Byte) (zones : List Byte) (s : State) : Served :=
  let zs := zoneNumbers zones
  match s.shafts.look shaft.toNat with
  | none => .refused .outOfRange
  | some k =>
    demand (s.listed zs) .outOfRange <|
    demand (s.permutes shaft.toNat zs) .badList <|
    .served (s.replaceRing shaft.toNat k.ring zs) fun t => t.ringData shaft.toNat

/-- SET_RING (R110). -/
def execSetRing (port : Port) (shaft : Byte) (zones : List Byte) (s : State) : Host.Outcome State Fault Refusal :=
  request port setRingRow (serveSetRing shaft zones) s

def setLastRow : Catalogued := ⟨0x37, .config⟩

def serveSetLast (zone : Byte) (s : State) : Served :=
  let z := zone.toNat
  match s.shaftOf z with
  | none => .refused .outOfRange
  | some n =>
    match s.shafts.look n with
    | none => .refused .outOfRange
    | some k => .served (s.replaceRing n k.ring (k.ring.filter (· != z) ++ [z])) fun t => t.ringData n

/-- SET_LAST (R109). -/
def execSetLast (port : Port) (zone : Byte) (s : State) : Host.Outcome State Fault Refusal :=
  request port setLastRow (serveSetLast zone) s

def setRotationRow : Catalogued := ⟨0x38, .config⟩

def serveSetRotation (shaft mode : Byte) (s : State) : Served :=
  match s.shafts.look shaft.toNat, RotationMode.ofCode mode.toNat with
  | some _, some m =>
    .served (s.onShaft shaft.toNat fun k => { k with mode := m }) fun t => u8 mode.toNat ++ t.ringData shaft.toNat
  | _, _ => .refused .outOfRange

/-- SET_ROTATION (R108). -/
def execSetRotation (port : Port) (shaft mode : Byte) (s : State) : Host.Outcome State Fault Refusal :=
  request port setRotationRow (serveSetRotation shaft mode) s

end Sys2Proof.Machine
end

