-- ==== Sys2Proof/Machine/StatusRequests.lean ====
section
/-! DEFINITION. The requests of the zone status unit (chapter 6). -/

namespace Sys2Proof.Machine

/-- The configured zone a request names, or the refusal of R1. -/
def withZone (s : State) (zone : Byte) (next : Served) : Served := demand (s.zones.has zone.toNat) .outOfRange next

/-- A forced stage written in a zone's record and, if it changed, handed to ventilation (R124). -/
def State.forceStage (s : State) (z : Nat) (v : Option Nat) : State :=
  if (s.statusOf z).forcedStage = v then s
  else (s.onStatus z fun r => { r with forcedStage := v }).updateZone z

/-- A stage or level field that may hold "clear" (R184), clamped to its top. -/
def clearable (top : Nat) (b : Byte) : Option Nat := if b.toNat = 255 then none else some (min top b.toNat)

def overrideStageRow : Catalogued := ⟨0x40, .override⟩

/-- R124's and R134's refusals, the zone's first (DESIGN CHOICE, log entry 36), then the stage. -/
def serveOverrideStage (zone stage : Byte) (s : State) : Served :=
  withZone s zone <|
  demand (!s.inSmoke) .closed <|
  .served (s.forceStage zone.toNat (clearable 4 stage)) fun t =>
    optional (t.statusOf zone.toNat).forcedStage u8

/-- OVERRIDE_STAGE (R124). -/
def execOverrideStage (port : Port) (zone stage : Byte) (s : State) : Host.Outcome State Fault Refusal :=
  request port overrideStageRow (serveOverrideStage zone stage) s

/-- A forced light written in a zone's record and, if it changed, handed to lighting (R125). -/
def State.forceLight (s : State) (z : Nat) (v : Option Nat) : State :=
  if (s.statusOf z).forcedLight = v then s
  else (s.onStatus z fun r => { r with forcedLight := v }).relight z

def overrideLightRow : Catalogued := ⟨0x41, .override⟩

/-- R125's and R134's refusals, the zone's first (DESIGN CHOICE, log entry 36), then the light. -/
def serveOverrideLight (zone level : Byte) (s : State) : Served :=
  withZone s zone <|
  demand (!s.inSmoke) .closed <|
  .served (s.forceLight zone.toNat (clearable 100 level)) fun t =>
    optional (t.statusOf zone.toNat).forcedLight u8

/-- OVERRIDE_LIGHT (R125). -/
def execOverrideLight (port : Port) (zone level : Byte) (s : State) : Host.Outcome State Fault Refusal :=
  request port overrideLightRow (serveOverrideLight zone level) s

/-- A hold-out flag written in a zone's record and, if it changed, handed to ventilation (R126). -/
def State.writeHoldOut (s : State) (z : Nat) (v : Bool) : State :=
  if (s.statusOf z).holdOut = v then s
  else (s.onStatus z fun r => { r with holdOut := v }).updateZone z

def holdOutRow : Catalogued := ⟨0x42, .override⟩

/-- R126's and R134's refusals, the zone's and the code's first (DESIGN CHOICE, log entry 36), then the flag. -/
def serveHoldOut (zone flag : Byte) (s : State) : Served :=
  withZone s zone <|
  match flagOfCode flag.toNat with
  | none => .refused .outOfRange
  | some v =>
    demand (!s.inSmoke) .closed <|
    .served (s.writeHoldOut zone.toNat v) fun t => flagField (t.statusOf zone.toNat).holdOut

/-- HOLD_OUT (R126). -/
def execHoldOut (port : Port) (zone flag : Byte) (s : State) : Host.Outcome State Fault Refusal :=
  request port holdOutRow (serveHoldOut zone flag) s

/-- A closure set after the event (R122). -/
def State.closureData (s : State) (zone : Byte) : List Byte := [(s.statusOf zone.toNat).closure.byte]

def closeZoneRow : Catalogued := ⟨0x43, .override⟩

def serveCloseZone (zone : Byte) (s : State) : Served :=
  withZone s zone <| .served (s.addCause [zone.toNat] .supervisor) fun t => t.closureData zone

/-- CLOSE_ZONE (R120, R122). -/
def execCloseZone (port : Port) (zone : Byte) (s : State) : Host.Outcome State Fault Refusal :=
  request port closeZoneRow (serveCloseZone zone) s

def openZoneRow : Catalogued := ⟨0x44, .override⟩

def serveOpenZone (zone : Byte) (s : State) : Served :=
  withZone s zone <| .served (s.removeCause [zone.toNat] .supervisor) fun t => t.closureData zone

/-- OPEN_ZONE (R121, R122). -/
def execOpenZone (port : Port) (zone : Byte) (s : State) : Host.Outcome State Fault Refusal :=
  request port openZoneRow (serveOpenZone zone) s

def supplyRow : Catalogued := ⟨0x45, .override⟩

def serveSupply (code : Byte) (s : State) : Served :=
  match Supply.ofCode code.toNat with
  | none => .refused .outOfRange
  | some v => .served (s.setSupply v) fun t => u8 t.supply.code

/-- SUPPLY (R129). -/
def execSupply (port : Port) (code : Byte) (s : State) : Host.Outcome State Fault Refusal :=
  request port supplyRow (serveSupply code) s

/-- SMOKE taken, by the smoke mode record as it stands (R130). -/
def State.takeSmoke (s : State) (level : Nat) : State :=
  match s.smoke with
  | none => s.smokeEntry level
  | some l => if l = level then s else s.fireLevelChange level

def smokeRow : Catalogued := ⟨0x50, .fire⟩

def serveSmoke (level : Byte) (s : State) : Served :=
  demand (decide (level.toNat < s.levelCount)) .outOfRange <|
  .served (s.takeSmoke level.toNat) fun t => smokeFields t.smoke

/-- SMOKE (R130 to R132). -/
def execSmoke (port : Port) (level : Byte) (s : State) : Host.Outcome State Fault Refusal :=
  request port smokeRow (serveSmoke level) s

def smokeClearRow : Catalogued := ⟨0x51, .fire⟩

def serveSmokeClear (s : State) : Served :=
  .served (if s.inSmoke then s.smokeClearing else s) fun t => smokeFields t.smoke

/-- SMOKE_CLEAR (R133). -/
def execSmokeClear (port : Port) (s : State) : Host.Outcome State Fault Refusal :=
  request port smokeClearRow serveSmokeClear s

end Sys2Proof.Machine
end

