-- ==== Sys2Proof/Machine/Traffic.lean ====
section
/-! DEFINITION. The traffic and guidance requests (sections 7.2, 7.3 and 7.5). -/

namespace Sys2Proof.Machine

/-- A vehicle passing a point: its credit and movements for the point's ramp list (R140). -/
def servePoint (ramps : Table (List Nat)) (point cls : Byte) (s : State) : Served :=
  match ramps.look point.toNat, VehicleClass.ofCode cls.toNat with
  | some zs, some c => .served (s.traffic c zs) fun _ => []
  | _, _ => .refused .outOfRange

def entryRow : Catalogued := ⟨0x20, .lane⟩

def serveEntry (point cls : Byte) (s : State) : Served := servePoint s.entryRamps point cls s

/-- ENTRY (R140). -/
def execEntry (port : Port) (point cls : Byte) (s : State) : Host.Outcome State Fault Refusal :=
  request port entryRow (serveEntry point cls) s

def exitRow : Catalogued := ⟨0x21, .lane⟩

def serveExit (point cls : Byte) (s : State) : Served := servePoint s.exitRamps point cls s

/-- EXIT (R140). -/
def execExit (port : Port) (point cls : Byte) (s : State) : Host.Outcome State Fault Refusal :=
  request port exitRow (serveExit point cls) s

/-- The data of REQUEST BAY (R147). -/
def State.holdReply (s : State) (slot : Nat) (h : Hold) : List Byte :=
  let kind := match s.bays.look h.bay with
    | some b => b.kind.code
    | none => 0
  u8 slot ++ u16 h.bay ++ u8 kind ++ u8 h.zone ++ zoneListField h.route ++ u16 (h.expiry - h.created)
    ++ timeField h.expiry

/-- The selection and the hold it makes, the request's codes and smoke test passed (R141 checks 5 and 6,
R147). -/
def serveHold (port : Port) (entry : Nat) (c : VehicleClass) (wanted : Option BayKind) (s : State) : Served :=
  match s.nextSlot with
  | none => .refused .holdsFull
  | some slot =>
    match s.select entry c (tiers wanted c) with
    | none => .refused .noBay
    | some (zone, bay) =>
      let h := s.newHold port entry zone bay c
      .served (s.createHold slot h) fun t => t.holdReply slot h

def requestBayRow : Catalogued := ⟨0x22, .lane⟩

def serveRequestBay (port : Port) (point cls kind : Byte) (s : State) : Served :=
  demand (s.entryRamps.has point.toNat) .outOfRange <|
  match VehicleClass.ofCode cls.toNat, wantedKindOfCode kind.toNat with
  | some c, some wanted => demand (!s.inSmoke) .closed <| serveHold port point.toNat c wanted s
  | _, _ => .refused .outOfRange

/-- REQUEST_BAY (R141 to R148). -/
def execRequestBay (port : Port) (point cls kind : Byte) (s : State) : Host.Outcome State Fault Refusal :=
  request port requestBayRow (serveRequestBay port point cls kind) s

def releaseHoldRow : Catalogued := ⟨0x23, .lane⟩

def serveReleaseHold (slot : Byte) (bay : BitVec 16) (s : State) : Served :=
  demand (decide (slot.toNat < 64)) .outOfRange <|
  demand (s.bays.has bay.toNat) .outOfRange <|
  match s.holds.look slot.toNat with
  | none => .refused .noHold
  | some h =>
    demand (h.bay == bay.toNat) .noHold <|
    .served (s.endHold slot.toNat .released) fun _ =>
      u8 slot.toNat ++ u16 bay.toNat ++ u16 (s.timebase - h.created)

/-- RELEASE_HOLD (R155). -/
def execReleaseHold (port : Port) (slot : Byte) (bay : BitVec 16) (s : State) : Host.Outcome State Fault Refusal :=
  request port releaseHoldRow (serveReleaseHold slot bay) s

end Sys2Proof.Machine
end

