-- ==== Sys2Proof/Machine/StationLine.lean ====
section
/-! DEFINITION. The station lines' commands (R185, R186, R188). -/

namespace Sys2Proof.Machine

/-- How a request is served: its row of the catalogue and its serving block's work at a port. -/
structure Serving where
  row   : Catalogued
  block : State → Served

/-- The serving of a decoded request (Table 10-5); none for a command that is no request. -/
def servingOf : Instr → Option Serving
  | .readStatus _ => some ⟨readStatusRow, serveReadStatus⟩
  | .readOptions _ => some ⟨readOptionsRow, serveReadOptions⟩
  | .readZone _ z => some ⟨readZoneRow, serveReadZone z⟩
  | .readFreeCounts p => some ⟨readFreeCountsRow, serveReadFreeCounts p⟩
  | .readBays _ z n => some ⟨readBaysRow, serveReadBays z n⟩
  | .readHolds _ n => some ⟨readHoldsRow, serveReadHolds n⟩
  | .readHoldEnds p => some ⟨readHoldEndsRow, serveReadHoldEnds p⟩
  | .readShaft _ k => some ⟨readShaftRow, serveReadShaft k⟩
  | .readNode _ g a => some ⟨readNodeRow, serveReadNode g a⟩
  | .readSegment _ g => some ⟨readSegmentRow, serveReadSegment g⟩
  | .readSign _ k => some ⟨readSignRow, serveReadSign k⟩
  | .readDose _ z => some ⟨readDoseRow, serveReadDose z⟩
  | .entry _ e c => some ⟨entryRow, serveEntry e c⟩
  | .exit _ e c => some ⟨exitRow, serveExit e c⟩
  | .requestBay p e c k => some ⟨requestBayRow, serveRequestBay p e c k⟩
  | .releaseHold _ n b => some ⟨releaseHoldRow, serveReleaseHold n b⟩
  | .setSetpoints _ ps => some ⟨setSetpointsRow, serveSetSetpoints ps⟩
  | .setZone _ z l k f => some ⟨setZoneRow, serveSetZone z l k f⟩
  | .setBay _ b k f => some ⟨setBayRow, serveSetBay b k f⟩
  | .setRoute _ e z zs => some ⟨setRouteRow, serveSetRoute e z zs⟩
  | .setRamp _ k e zs => some ⟨setRampRow, serveSetRamp k e zs⟩
  | .setSign _ k f zs => some ⟨setSignRow, serveSetSign k f zs⟩
  | .setRing _ k zs => some ⟨setRingRow, serveSetRing k zs⟩
  | .setLast _ z => some ⟨setLastRow, serveSetLast z⟩
  | .setRotation _ k m => some ⟨setRotationRow, serveSetRotation k m⟩
  | .overrideStage _ z n => some ⟨overrideStageRow, serveOverrideStage z n⟩
  | .overrideLight _ z n => some ⟨overrideLightRow, serveOverrideLight z n⟩
  | .holdOut _ z f => some ⟨holdOutRow, serveHoldOut z f⟩
  | .closeZone _ z => some ⟨closeZoneRow, serveCloseZone z⟩
  | .openZone _ z => some ⟨openZoneRow, serveOpenZone z⟩
  | .supply _ c => some ⟨supplyRow, serveSupply c⟩
  | .smoke _ l => some ⟨smokeRow, serveSmoke l⟩
  | .smokeClear _ => some ⟨smokeClearRow, serveSmokeClear⟩
  | .setRights _ q r => some ⟨setRightsRow, serveSetRights q r⟩
  | .lockRights _ q => some ⟨lockRightsRow, serveLockRights q⟩
  | .setRouting _ q c => some ⟨setRoutingRow, serveSetRouting q c⟩
  | .setNoticeMask p c => some ⟨setNoticeMaskRow, serveSetNoticeMask p c⟩
  | .setAutoAck p c => some ⟨setAutoAckRow, serveSetAutoAck p c⟩
  | .restart _ => some ⟨restartRow, serveRestart⟩
  | .pollNotice p => some ⟨pollNoticeRow, servePollNotice p⟩
  | .ackNotice p c => some ⟨ackNoticeRow, serveAckNotice p c⟩
  | .coldReset | .resetReleased | .imageReadDone _ | .secondEvent | .minuteClose | .settleInComplete _
  | .settleOutComplete _ | .holdExpiry | .activeDeadline _ | .standbyDeadline _ | .sensorGraceExpiry _
  | .overrideLapse | .wakeActiveEnd _ | .wakeEnd _ | .rollCallSent _ | .pollSent _ | .setSent _ | .probeDue _
  | .goodPollReply _ _ | .goodSetReply _ _ | .validRollCallReply _ _ | .replyWrongKind _ _ | .replyBadFrame _ _
  | .replyGap _ | .replyTimeout _ | .hangDetected _ | .hungIdleTest _ _ | .hungNodeLoss _ | .pacingIntervalEnd _
  | .stationBadLength _ _ | .stationGapTimeout _ | .discardQuietEnd _ | .stationFrameComplete _ _ | .replySent _
  | .stationStartByte _ | .requesterFrameEnd _ => none

/-- A taken frame: the port unit's first two checks, then the request served (R187). -/
def State.serveFrame (s : State) (p : Port) (f : StationFrame) : State :=
  match decodeRequest p f.code f.args with
  | .unknownCommand => s.send p f.code .unknownCommand []
  | .badLength => s.send p f.code .badLength []
  | .request i =>
    match servingOf i with
    | some v => s.serve p v.row v.block
    | none => s

/-- A frame error counted (R185, R186). -/
def PortRecord.error (rx : RxState) (r : PortRecord) : PortRecord := { r with rx := rx, errors := bump r.errors }

/-- A whole frame at a port: an error, an overrun, or taken (R186). Bytes that make no whole frame, and
bytes that come in DISCARDING, change nothing. -/
def State.frameComplete (s : State) (p : Port) (frame : List Byte) : State :=
  if (s.ports.at p).rx = .discarding then s
  else match readStationFrame frame with
    | none => s
    | some f =>
      if f.valid then s.arrival p fun t => t.serveFrame p f
      else s.onPort p (PortRecord.error .idle)

/-- Change a port's record where its receive state is the one given. -/
def State.whenRx (s : State) (p : Port) (rx : RxState) (f : PortRecord → PortRecord) : State :=
  if (s.ports.at p).rx = rx then s.onPort p f else s

/-- STATION_START_BYTE (R185). -/
def execStationStartByte (port : Port) (s : State) : Host.Outcome State Fault Refusal :=
  event (fun t => t.whenRx port .idle fun r => { r with rx := .receiving }) s

/-- STATION_BAD_LENGTH (R185). -/
def execStationBadLength (port : Port) (length : BitVec 16) (s : State) : Host.Outcome State Fault Refusal :=
  event (fun t => if length.toNat = 0 ∨ length.toNat > 256 then t.whenRx port .receiving (PortRecord.error .discarding)
                  else t) s

/-- STATION_GAP_TIMEOUT (R185). -/
def execStationGapTimeout (port : Port) (s : State) : Host.Outcome State Fault Refusal :=
  event (fun t => t.whenRx port .receiving (PortRecord.error .idle)) s

/-- DISCARD_QUIET_END (R185). -/
def execDiscardQuietEnd (port : Port) (s : State) : Host.Outcome State Fault Refusal :=
  event (fun t => t.whenRx port .discarding fun r => { r with rx := .idle }) s

/-- STATION_FRAME_COMPLETE (R186, R187). -/
def execStationFrameComplete (port : Port) (frame : List Byte) (s : State) : Host.Outcome State Fault Refusal :=
  event (fun t => t.frameComplete port frame) s

/-- REPLY_SENT (R188). -/
def execReplySent (port : Port) (s : State) : Host.Outcome State Fault Refusal :=
  event (fun t => t.onPort port fun r => { r with tx := none }) s

end Sys2Proof.Machine
end

