-- ==== Sys2Proof/Machine/Timebase.lean ====
section
/-! DEFINITION. The timebase's commands: the second event and the tests that the blocks make at it
(R20, log entry 2). -/

namespace Sys2Proof.Machine

/-! ### The second event -/

/-- The count one second on, holding at its maximum (R20). -/
def nextSecond (t : Nat) : Nat := if t < 4294967295 then t + 1 else t

/-- The port unit's report of the lapse condition reaches the zone status unit (R127, R193): an end
returns the lapse state to WATCHING; that it holds is acted on by OVERRIDE_LAPSE. -/
def State.reportLapse (s : State) : State :=
  if s.lapseCondition then { s with lapseHolds := true } else s.lapseEnds

/-- Mark the zones whose loss timer the second finds at the sensor grace (R83). -/
def State.markGrace (s : State) : State :=
  { s with air := s.air.each fun _ a => { a with graceDue := s.graceReached a } }

/-- The second event (R20), in RUN alone. -/
def State.secondEvent (s : State) : State :=
  if s.part = .run then
    let now := nextSecond s.timebase
    ({ s with timebase := now
              minuteDue := s.minuteDue || (decide (now ≠ s.timebase) && now % 60 == 0) }).markGrace.reportLapse
  else s

/-- Do the work of a second's test in RUN, where it finds something due. -/
def State.atSecond (s : State) (due : Bool) (f : State → State) : State :=
  if s.part = .run ∧ due then countingEvent f s else s

/-! ### What the second's tests find -/

/-- The minute close is taken (R78). -/
def State.takeMinute (s : State) : State := ({ s with minuteDue := false }).minuteClose

/-- A settle-out completes (R57): FREE, a movement, and a credit of class UNKNOWN. -/
def State.settleOut (s : State) (b : Nat) : State :=
  match s.bays.look b with
  | none => s
  | some r =>
    ((s.writeBay b fun r' => { r' with occ := .free, deadline := none }).movement r.zone).creditEvent .unknown [r.zone]

/-- Whether some hold's expiry time is reached (R151). -/
def State.expiryDue (s : State) : Bool := s.holds.any fun e => decide (e.2.expiry ≤ s.timebase)

/-- The holds whose expiry time is reached end EXPIRED (R151). -/
def State.expire (s : State) : State := s.endHolds (fun h => decide (h.expiry ≤ s.timebase)) .expired

/-- Whether the last second event marked the zone for SENSOR_LOSS and no sample has come since (R83). -/
def State.graceDueAt (s : State) (z : Nat) : Bool :=
  match s.air.look z with
  | some a => a.graceDue && !a.loss
  | none => false

/-- Whether a lapse is to be taken (R127). -/
def State.lapseDue (s : State) : Bool := s.lapseHolds && s.lapse == .watching

/-! ### The commands -/

/-- SECOND_EVENT (R20). -/
def execSecondEvent (s : State) : Host.Outcome State Fault Refusal := event State.secondEvent s

/-- MINUTE_CLOSE (R78). -/
def execMinuteClose (s : State) : Host.Outcome State Fault Refusal :=
  event (fun t => t.atSecond t.minuteDue State.takeMinute) s

/-- SETTLE_IN_COMPLETE (R55, R56). -/
def execSettleInComplete (bay : Nat) (s : State) : Host.Outcome State Fault Refusal :=
  event (fun t => t.atSecond (t.settleDue bay .settlingIn) fun u => u.settleIn bay) s

/-- SETTLE_OUT_COMPLETE (R55, R57). -/
def execSettleOutComplete (bay : Nat) (s : State) : Host.Outcome State Fault Refusal :=
  event (fun t => t.atSecond (t.settleDue bay .settlingOut) fun u => u.settleOut bay) s

/-- HOLD_EXPIRY (R151). -/
def execHoldExpiry (s : State) : Host.Outcome State Fault Refusal :=
  event (fun t => t.atSecond t.expiryDue State.expire) s

/-- ACTIVE_DEADLINE (R175). -/
def execActiveDeadline (zone : Nat) (s : State) : Host.Outcome State Fault Refusal :=
  event (fun t => if t.part = .run then t.activeReached zone else t) s

/-- STANDBY_DEADLINE (R175). -/
def execStandbyDeadline (zone : Nat) (s : State) : Host.Outcome State Fault Refusal :=
  event (fun t => if t.part = .run then t.standbyReached zone else t) s

/-- SENSOR_GRACE_EXPIRY (R83). -/
def execSensorGraceExpiry (zone : Nat) (s : State) : Host.Outcome State Fault Refusal :=
  event (fun t => t.atSecond (t.graceDueAt zone) fun u => u.setLoss zone) s

/-- OVERRIDE_LAPSE (R127, R128). -/
def execOverrideLapse (s : State) : Host.Outcome State Fault Refusal :=
  event (fun t => t.atSecond t.lapseDue State.takeLapse) s

end Sys2Proof.Machine
end

