-- ==== Sys2Proof/Machine/Dispatch.lean ====
section
/-! DEFINITION. The dispatch of a command to its meaning: one arm per constructor of Instr. -/

namespace Sys2Proof.Machine

/-- The effect of a command on everything but the queue. -/
def exec (i : Instr) (s : State) : Host.Outcome State Fault Refusal :=
  match i with
  | .coldReset => Sys2Proof.Machine.execColdReset s
  | .resetReleased => Sys2Proof.Machine.execResetReleased s
  | .imageReadDone read => Sys2Proof.Machine.execImageReadDone read s
  | .secondEvent => Sys2Proof.Machine.execSecondEvent s
  | .minuteClose => Sys2Proof.Machine.execMinuteClose s
  | .settleInComplete bay => Sys2Proof.Machine.execSettleInComplete bay s
  | .settleOutComplete bay => Sys2Proof.Machine.execSettleOutComplete bay s
  | .holdExpiry => Sys2Proof.Machine.execHoldExpiry s
  | .activeDeadline zone => Sys2Proof.Machine.execActiveDeadline zone s
  | .standbyDeadline zone => Sys2Proof.Machine.execStandbyDeadline zone s
  | .sensorGraceExpiry zone => Sys2Proof.Machine.execSensorGraceExpiry zone s
  | .overrideLapse => Sys2Proof.Machine.execOverrideLapse s
  | .wakeActiveEnd seg => Sys2Proof.Machine.execWakeActiveEnd seg s
  | .wakeEnd seg => Sys2Proof.Machine.execWakeEnd seg s
  | .rollCallSent seg => Sys2Proof.Machine.execRollCallSent seg s
  | .pollSent seg => Sys2Proof.Machine.execPollSent seg s
  | .setSent seg => Sys2Proof.Machine.execSetSent seg s
  | .probeDue seg => Sys2Proof.Machine.execProbeDue seg s
  | .goodPollReply seg frame => Sys2Proof.Machine.execGoodPollReply seg frame s
  | .goodSetReply seg frame => Sys2Proof.Machine.execGoodSetReply seg frame s
  | .validRollCallReply seg frame => Sys2Proof.Machine.execValidRollCallReply seg frame s
  | .replyWrongKind seg frame => Sys2Proof.Machine.execReplyWrongKind seg frame s
  | .replyBadFrame seg frame => Sys2Proof.Machine.execReplyBadFrame seg frame s
  | .replyGap seg => Sys2Proof.Machine.execReplyGap seg s
  | .replyTimeout seg => Sys2Proof.Machine.execReplyTimeout seg s
  | .hangDetected seg => Sys2Proof.Machine.execHangDetected seg s
  | .hungIdleTest seg idle => Sys2Proof.Machine.execHungIdleTest seg idle s
  | .hungNodeLoss seg => Sys2Proof.Machine.execHungNodeLoss seg s
  | .pacingIntervalEnd sign => Sys2Proof.Machine.execPacingIntervalEnd sign s
  | .stationBadLength port length => Sys2Proof.Machine.execStationBadLength port length s
  | .stationGapTimeout port => Sys2Proof.Machine.execStationGapTimeout port s
  | .discardQuietEnd port => Sys2Proof.Machine.execDiscardQuietEnd port s
  | .stationFrameComplete port frame => Sys2Proof.Machine.execStationFrameComplete port frame s
  | .replySent port => Sys2Proof.Machine.execReplySent port s
  | .readStatus port => Sys2Proof.Machine.execReadStatus port s
  | .readOptions port => Sys2Proof.Machine.execReadOptions port s
  | .readZone port zone => Sys2Proof.Machine.execReadZone port zone s
  | .readFreeCounts port => Sys2Proof.Machine.execReadFreeCounts port s
  | .readBays port zone start => Sys2Proof.Machine.execReadBays port zone start s
  | .readHolds port start => Sys2Proof.Machine.execReadHolds port start s
  | .readHoldEnds port => Sys2Proof.Machine.execReadHoldEnds port s
  | .readShaft port shaft => Sys2Proof.Machine.execReadShaft port shaft s
  | .readNode port seg address => Sys2Proof.Machine.execReadNode port seg address s
  | .readSegment port seg => Sys2Proof.Machine.execReadSegment port seg s
  | .readSign port sign => Sys2Proof.Machine.execReadSign port sign s
  | .readDose port zone => Sys2Proof.Machine.execReadDose port zone s
  | .entry port point cls => Sys2Proof.Machine.execEntry port point cls s
  | .exit port point cls => Sys2Proof.Machine.execExit port point cls s
  | .requestBay port point cls kind => Sys2Proof.Machine.execRequestBay port point cls kind s
  | .releaseHold port slot bay => Sys2Proof.Machine.execReleaseHold port slot bay s
  | .setSetpoints port pairs => Sys2Proof.Machine.execSetSetpoints port pairs s
  | .setZone port zone level shaft baseFlow => Sys2Proof.Machine.execSetZone port zone level shaft baseFlow s
  | .setBay port bay kind outOfUse => Sys2Proof.Machine.execSetBay port bay kind outOfUse s
  | .setRoute port point target zones => Sys2Proof.Machine.execSetRoute port point target zones s
  | .setRamp port pointKind point zones => Sys2Proof.Machine.execSetRamp port pointKind point zones s
  | .setSign port sign filter zones => Sys2Proof.Machine.execSetSign port sign filter zones s
  | .setRing port shaft zones => Sys2Proof.Machine.execSetRing port shaft zones s
  | .setLast port zone => Sys2Proof.Machine.execSetLast port zone s
  | .setRotation port shaft mode => Sys2Proof.Machine.execSetRotation port shaft mode s
  | .overrideStage port zone stage => Sys2Proof.Machine.execOverrideStage port zone stage s
  | .overrideLight port zone level => Sys2Proof.Machine.execOverrideLight port zone level s
  | .holdOut port zone flag => Sys2Proof.Machine.execHoldOut port zone flag s
  | .closeZone port zone => Sys2Proof.Machine.execCloseZone port zone s
  | .openZone port zone => Sys2Proof.Machine.execOpenZone port zone s
  | .supply port code => Sys2Proof.Machine.execSupply port code s
  | .smoke port level => Sys2Proof.Machine.execSmoke port level s
  | .smokeClear port => Sys2Proof.Machine.execSmokeClear port s
  | .setRights port named rights => Sys2Proof.Machine.execSetRights port named rights s
  | .lockRights port named => Sys2Proof.Machine.execLockRights port named s
  | .setRouting port named classes => Sys2Proof.Machine.execSetRouting port named classes s
  | .setNoticeMask port classes => Sys2Proof.Machine.execSetNoticeMask port classes s
  | .setAutoAck port code => Sys2Proof.Machine.execSetAutoAck port code s
  | .restart port => Sys2Proof.Machine.execRestart port s
  | .pollNotice port => Sys2Proof.Machine.execPollNotice port s
  | .ackNotice port cls => Sys2Proof.Machine.execAckNotice port cls s
  | .stationStartByte port => Sys2Proof.Machine.execStationStartByte port s
  | .requesterFrameEnd seg => Sys2Proof.Machine.execRequesterFrameEnd seg s

end Sys2Proof.Machine
end

