-- ==== Sys2Proof/Safety.lean ====
section
/-! DEFINITION. What counts as a sound state of the part, in the terms the statements use. -/

namespace Sys2Proof.Machine

/-- The attention line of each port is what R199 makes of its sets. -/
def NoticeRecord.sound (r : NoticeRecord) : Bool := r.line == (topQualifying r).isSome

/-- Every port's attention line follows its sets (R199). -/
def State.linesSound (s : State) : Bool := s.notices.toList.all NoticeRecord.sound

/-- Every zone's free counts are the counts of its bays (R62). -/
def State.countsSound (s : State) : Bool := s.free.all fun e => e.2 == countsOf s.bays e.1

/-- Every segment's node table, in canonical form. -/
def State.nodesRising (s : State) : Bool := s.segs.all fun e => e.2.nodes.rising

/-- Every table in its canonical form: places strictly rising. -/
def State.tablesRising (s : State) : Bool :=
  s.zones.rising && s.lamps.rising && s.routes.rising && s.entryRamps.rising && s.exitRamps.rising && s.segs.rising
    && s.nodesRising && s.bays.rising && s.free.rising && s.gas.rising && s.air.rising && s.drives.rising
    && s.vent.rising && s.shafts.rising && s.status.rising && s.holds.rising && s.escorts.rising && s.signs.rising
    && s.lights.rising

/-- Every port's hold end list holds at most 16 entries (R157). -/
def State.endsSound (s : State) : Bool := s.ends.toList.all fun l => decide (l.entries.length ≤ 16)

/-! ### A port that serves -/

/-- A port that serves a request of a right: the pin high, the part in RUN, the receive state not
DISCARDING, the transmitter IDLE, the right held (R185 to R187). -/
def State.ready (s : State) (p : Port) (r : Right) : Prop :=
  s.resetLow = false ∧ s.part = .run ∧ (s.ports.at p).rx ≠ .discarding ∧ (s.ports.at p).tx = none
    ∧ (s.ports.at p).rights.has r = true

/-- The state a request leaves that changes nothing but its port: the request is taken, so the receive state is
IDLE, the last request time is the present and a port that holds OVERRIDE ends the lapse condition (R127, R185,
R193); and the reply starts at the port's bit rate (R188). -/
def State.answering (s : State) (p : Port) (code : Byte) (status : Status) (data : List Byte) : State :=
  { s with
    ports := s.ports.adjust p fun r =>
      { r with rx := .idle, lastRequest := s.timebase, tx := some ⟨stationReply code status data, s.rate⟩ }
    lapse := if (s.ports.at p).rights.override then .watching else s.lapse
    lapseHolds := if (s.ports.at p).rights.override then false else s.lapseHolds }

/-- The right of each command code, as Table 10-5 lists it (R192). -/
def rightOfCode (code : Byte) : Right :=
  if code.toNat ≤ 0x0C then .read
  else if code.toNat ≤ 0x23 then .lane
  else if code.toNat ≤ 0x38 then .config
  else if code.toNat ≤ 0x45 then .override
  else if code.toNat ≤ 0x51 then .fire
  else if code.toNat = 0x63 ∨ code.toNat = 0x64 then .read
  else if code.toNat ≤ 0x65 then .admin
  else .read

/-- A port with a change made of its record and nothing else. -/
def State.withPort (s : State) (p : Port) (f : PortRecord → PortRecord) : State :=
  { s with ports := s.ports.adjust p f }

/-- A count that has gone up by one, holding at 65,535 (R185, R186). -/
def counted (n : Nat) : Nat := if 65535 ≤ n then n else n + 1

/-! ### Frames -/

/-- A node record but for its commanded value. -/
def Node.uncommanded (n : Node) : Node := { n with commanded := none }

/-- The field controller's state but for the commanded values of its nodes (R29). -/
def State.fieldShape (s : State) : Table Segment :=
  s.segs.each fun _ g => { g with nodes := g.nodes.each fun _ n => n.uncommanded }

/-- The kinds of state a command may touch. -/
structure Touch where
  /-- the segments, for a value commanded of a node -/
  segs : Bool := false
  /-- the field controller's state beside its nodes' commanded values -/
  engine : Bool := false
  bays : Bool := false
  free : Bool := false
  gas : Bool := false
  air : Bool := false
  drives : Bool := false
  vent : Bool := false
  shafts : Bool := false
  status : Bool := false
  holds : Bool := false
  holdPtr : Bool := false
  escorts : Bool := false
  ends : Bool := false
  signs : Bool := false
  lights : Bool := false
  notices : Bool := false
  part : Bool := false
  supply : Bool := false
  smoke : Bool := false
  lapse : Bool := false
  clock : Bool := false
  ports : Bool := false
  tables : Bool := false
  setpoints : Bool := false
  restarts : Bool := false
deriving DecidableEq

/-- Everything outside the touched kinds is as it was. -/
structure Keeps (k : Touch) (s t : State) : Prop where
  segs : k.segs = false → t.segs = s.segs
  shape : k.engine = false → t.fieldShape = s.fieldShape
  bays : k.bays = false → t.bays = s.bays
  free : k.free = false → t.free = s.free
  gas : k.gas = false → t.gas = s.gas
  air : k.air = false → t.air = s.air
  drives : k.drives = false → t.drives = s.drives
  vent : k.vent = false → t.vent = s.vent
  shafts : k.shafts = false → t.shafts = s.shafts
  status : k.status = false → t.status = s.status
  holds : k.holds = false → t.holds = s.holds
  holdPtr : k.holdPtr = false → t.holdPtr = s.holdPtr
  escorts : k.escorts = false → t.escorts = s.escorts
  ends : k.ends = false → t.ends = s.ends
  signs : k.signs = false → t.signs = s.signs
  lights : k.lights = false → t.lights = s.lights
  notices : k.notices = false → t.notices = s.notices
  part : k.part = false → t.part = s.part
  supply : k.supply = false → t.supply = s.supply
  smoke : k.smoke = false → t.smoke = s.smoke
  lapse : k.lapse = false → t.lapse = s.lapse
  lapseHolds : k.lapse = false → t.lapseHolds = s.lapseHolds
  timebase : k.clock = false → t.timebase = s.timebase
  minuteDue : k.clock = false → t.minuteDue = s.minuteDue
  ports : k.ports = false → t.ports = s.ports
  zones : k.tables = false → t.zones = s.zones
  routes : k.tables = false → t.routes = s.routes
  entryRamps : k.tables = false → t.entryRamps = s.entryRamps
  exitRamps : k.tables = false → t.exitRamps = s.exitRamps
  setpoints : k.setpoints = false → t.setpoints = s.setpoints
  restarts : k.restarts = false → t.restarts = s.restarts
  pending : t.pending = s.pending
  resetLow : t.resetLow = s.resetLow
  rejection : t.rejection = s.rejection
  rate : t.rate = s.rate
  options : t.options = s.options
  levelCount : t.levelCount = s.levelCount
  lamps : t.lamps = s.lamps
  imageBus : t.imageBus = s.imageBus

/-- What an event of a segment may touch beside the segment: the records of every block that owns records carried by
its nodes, and through the holds it ends and the closures it brings, theirs; and the part state, at the end of
discovery (R19, R26, R63, R84). -/
def Touch.fieldwork : Touch :=
  { segs := true, engine := true, bays := true, free := true, gas := true, air := true, drives := true, vent := true, shafts := true,
    status := true, holds := true, escorts := true, ends := true, signs := true, lights := true, notices := true,
    part := true }

/-- What a request that may end holds or change closures may touch beside its port (R63, R84, R120, R150). -/
def Touch.guiding : Touch :=
  { segs := true, bays := true, free := true, air := true, vent := true, shafts := true, status := true,
    holds := true, holdPtr := true, escorts := true, ends := true, signs := true, lights := true, notices := true }

/-- Every segment but one is as it was. -/
def othersKept (i : Nat) (s t : State) : Prop := ∀ j, j ≠ i → t.segs.look j = s.segs.look j

/-- Every segment but one is as it was, but for the commanded values of its nodes (R29). -/
def othersShaped (i : Nat) (s t : State) : Prop := ∀ j, j ≠ i → t.fieldShape.look j = s.fieldShape.look j

/-- Every node but one is as it was, and every other segment, but for the commanded values (R29). -/
def onlyNode (i a : Nat) (s t : State) : Prop :=
  othersShaped i s t
    ∧ ∀ b, b ≠ a → (t.node i b).map Node.uncommanded = (s.node i b).map Node.uncommanded

/-- The part state after a segment leaves discovery: from DISCOVERING the part enters RUN exactly where every other
segment in use has left discovery, and otherwise it stands as it was (R19). -/
def partAfterLeaving (i : Nat) (s t : State) : Prop :=
  let others := ∀ j h, s.segs.look j = some h → j ≠ i → s.inUse j = true → h.left = true
  (s.part ≠ .discovering → t.part = s.part)
    ∧ (s.segs.rising = true → s.part = .discovering → (others → t.part = .run) ∧ (¬ others → t.part = .discovering))

/-! ### What the rules' tables give

These say again, in the manual's own terms and from the setpoints by number, what the statements hold the machine to. -/

/-- Table 9-2 with R177's cap: the line of a zone, its level and whether the cap was applied (DESIGN CHOICE, log entry 37:
applied on every line it reaches under RESTRICTED supply). -/
def State.tabledLight (s : State) (r : ZoneStatus) (l : LightZone) : LightLine × Nat × Bool :=
  let restricted := decide (s.supply = .restricted)
  let raised := if restricted then min (s.sp 34) (s.sp 33) else s.sp 34
  match s.smoke, r.forcedLight with
  | some _, _ => (.smoke, 100, false)
  | none, some n => (.forced, max n (s.sp 32), false)
  | none, none =>
    if r.closure.air then (.air, 100, false)
    else if 0 < l.escorts then (.escort, raised, restricted)
    else match l.state with
      | .active => (.active, raised, restricted)
      | .standby => (.standby, s.sp 33, false)
      | .floor => (.floor, s.sp 32, false)

/-- A zone's lighting record stands at what Table 9-2 and R177 give it (R176 to R178). -/
def State.litAsTabled (s : State) (z : Nat) (l : LightZone) : Prop :=
  ∀ r, s.status.look z = some r → (l.line, l.level, l.capped) = s.tabledLight r l

/-- A sign's target: the first case of R164 that applies. -/
def State.tabledTarget (s : State) (g : Sign) : Display :=
  let heard := g.zones.filter s.zoneOpen
  let sum := (heard.map fun z => match g.filter with
    | .general => (s.freeOf z).standard + (s.freeOf z).wide
    | .wide => (s.freeOf z).wide
    | .charger => (s.freeOf z).charger
    | .accessible => (s.freeOf z).accessible).sum
  if s.smoke ≠ none ∨ heard = [] then .closed else if sum = 0 then .full else .count (min 999 sum)

/-- A bay after one detector report (Table 3-2): its row by the occupancy state, its column by the value. `now` is the
timebase and `settle` the settle time held. The hold reference is not the table's. -/
def tabledReport (now settle : Nat) (v : RawValue) (b : Bay) : Bay :=
  let changed (occ : Occupancy) (deadline : Option Nat) (glitches : Nat) : Bay :=
    { b with raw := some v, occ := occ, deadline := deadline, glitches := glitches }
  match b.occ, v with
  | .unknown, .absent => changed .free b.deadline b.glitches
  | .unknown, .present => changed .occupied b.deadline b.glitches
  | .unknown, .fault => changed .unknown b.deadline b.glitches
  | .free, .absent => changed .free b.deadline b.glitches
  | .free, .present => changed .settlingIn (some (now + settle)) b.glitches
  | .settlingIn, .absent => changed .free none (counted b.glitches)
  | .settlingIn, .present => changed .settlingIn b.deadline b.glitches
  | .occupied, .absent => changed .settlingOut (some (now + settle)) b.glitches
  | .occupied, .present => changed .occupied b.deadline b.glitches
  | .settlingOut, .absent => changed .settlingOut b.deadline b.glitches
  | .settlingOut, .present => changed .occupied none (counted b.glitches)
  | .free, .fault | .settlingIn, .fault | .occupied, .fault | .settlingOut, .fault => changed .unknown none b.glitches

/-- A port's hold end list after the ending, in ascending slot order, of every live hold of its making that meets a
test (R150, R157). -/
def State.endedInto (s : State) (which : Hold → Bool) (cause : EndCause) (p : Port) : EndList :=
  (s.holds.filter fun e => which e.2 && decide (e.2.port = p)).foldl
    (fun l e => l.append ⟨e.1, e.2.bay, e.2.zone, cause, s.timebase - e.2.created⟩) (s.ends.at p)

/-- The computed stage and the dwell start after a D update (R91): the rise, the fall and the hold. -/
def State.tabledStage (s : State) (d : Nat) (v : VentZone) : Nat × Nat :=
  let reached := if s.sp 10 ≤ d then 4 else if s.sp 9 ≤ d then 3 else if s.sp 8 ≤ d then 2 else if s.sp 7 ≤ d then 1 else 0
  if v.computed < reached then (reached, s.timebase)
  else if 0 < v.computed ∧ d + s.sp 11 < s.sp (6 + v.computed) ∧ v.dwell + s.sp 12 ≤ s.timebase then
    (v.computed - 1, s.timebase)
  else (v.computed, v.dwell)

/-- A zone's alarm minimum, wanted stage, floor and want stand at what R92 to R94 give them. -/
def State.figuredAs (s : State) (z : Nat) (v : VentZone) : Prop :=
  ∀ e a r, s.zones.look z = some e → s.air.look z = some a → s.status.look z = some r →
    v.alarmMin = (if a.peak then 4 else if a.dose then 3 else if a.loss then s.sp 18 else 0)
    ∧ v.wanted = max (r.forcedStage.getD v.computed) v.alarmMin
    ∧ v.floor = e.baseFlow
    ∧ v.want = (if r.holdOut = true ∧ v.alarmMin ≤ 2 then e.baseFlow else max e.baseFlow (s.stageFlow v.wanted))

/-- The effective stage a flow carries (R95, R103): the highest stage, not above the wanted stage, whose flow is at or
below it. -/
def State.carries (s : State) (wanted flow stage : Nat) : Prop :=
  stage ≤ wanted ∧ s.stageFlow stage ≤ flow ∧ ∀ n, stage < n → n ≤ wanted → flow < s.stageFlow n

/-- A shaft's speed (R105): the flow over the rating as a percent, rounded up and not below the drive minimum. -/
def State.tabledSpeed (s : State) (flow rating : Nat) : Nat :=
  if flow = 0 then 0 else max (s.sp 27) ((flow * 100 + rating - 1) / rating)

/-- A figure of a zone's ventilation record, 0 where the zone has none. -/
def State.ventFigure (s : State) (f : VentZone → Nat) (z : Nat) : Nat :=
  match s.vent.look z with
  | some v => f v
  | none => 0

/-- A zone's allocation of a capacity under a ring (R101, R102), from the zones before it in priority order: those of a
higher wanted stage, and those of an equal one that stand earlier in the ring. -/
def State.tabledShare (s : State) (cap : Nat) (ring : List Nat) (z : Nat) : Nat :=
  let wanted := s.ventFigure VentZone.wanted
  let want := s.ventFigure VentZone.want
  let floor := s.ventFigure VentZone.floor
  let before := ring.filter fun y => decide (wanted z < wanted y)
    || decide (wanted y = wanted z) && decide (ring.idxOf y < ring.idxOf z)
  let floors := (ring.map floor).sum
  let share := fun y => floor y * cap / floors
  if cap = 0 then 0
  else if cap < floors then
    share z + (if 0 < floor z ∧ (before.filter fun y => decide (0 < floor y)).length < cap - (ring.map share).sum then 1 else 0)
  else floor z + min (want z - floor z) (cap - floors - (before.map fun y => want y - floor y).sum)

/-- The rated flows of a shaft's AVAILABLE drives (R99). -/
def State.availableRating (s : State) (n : Nat) : Nat :=
  (s.drives.map fun e => match e.2.duty, e.2.avail with
    | .shaft k rated, .available => if k = n then rated else 0
    | .shaft _ _, .waiting | .shaft _ _, .unavailable | .jet _, _ => 0).sum

/-- A drive whose node no other record names (R7). -/
def State.nodeAlone (s : State) (d : Nat) (x : Drive) : Prop :=
  (∀ d' x', s.drives.look d' = some x' → x'.seg = x.seg → x'.addr = x.addr → d' = d)
  ∧ (∀ c p, s.lamps.look c = some p → ¬ (p.seg = x.seg ∧ p.addr = x.addr))
  ∧ ∀ k g, s.signs.look k = some g → ¬ (g.seg = x.seg ∧ g.addr = x.addr)

/-- A node's record is as it was but for the percentage it is commanded (R29). -/
def commandedTo (s t : State) (seg addr v : Nat) : Prop :=
  t.node seg addr = (s.node seg addr).map fun n => { n with commanded := some (.percent v) }

/-- A gas channel is valid: its node is PRESENT or SUSPECT and its last status is OK (R68). -/
def State.channelValid (s : State) (c : GasChannel) : Bool :=
  match s.node c.seg c.addr with
  | some n => (n.state == .present || n.state == .suspect) && c.status == some .ok
  | none => false

/-- Whether a zone has a valid channel (R68). -/
def State.sensed (s : State) (z : Nat) : Bool := s.gas.any fun e => e.2.zone == z && s.channelValid e.2

/-- Every hold reference of a bay names a live hold of that bay (R60). -/
def State.holdsAgree (s : State) : Bool :=
  s.bays.all fun e => match e.2.hold with
    | none => true
    | some n => match s.holds.look n with
      | some h => h.bay == e.1
      | none => false

/-- No two drives of a table are JET drives of one zone (R3). -/
def oneJet (t : Table Drive) : Prop :=
  ∀ d d' x x' z, t.look d = some x → t.look d' = some x' → x.duty = .jet z → x'.duty = .jet z → d = d'

/-- Whether a bay is watched by one of some nodes of a segment. -/
def State.bayOn (s : State) (i : Nat) (on : Nat → Bool) (b : Nat) : Bool :=
  match s.bays.look b with
  | some r => r.seg == i && on r.addr
  | none => false

/-- What a valid reply naming a kind resolves an address of a roll call to, from the node its tables configure, if
anything (R33, R34, in SAFE R46; a PRESENT node's failure cause is its own still: log entry 10). -/
def State.answerResolves (s : State) (n : Option Node) (k : NodeKind) : Option Resolved :=
  if s.part = .safe then some ⟨k, .present, 0, none⟩
  else n.map fun n => if n.kind = k then ⟨k, .present, 0, n.cause⟩ else ⟨n.kind, .mismatch, 0, some .wrongKind⟩

/-- What as many attempts as its threshold, none with a valid reply, resolve an address of a roll call to (R33, R34, R46). -/
def State.silenceResolves (s : State) (n : Option Node) (attempts : Nat) (cause : FailureCause) : Option Resolved :=
  if s.part = .safe then none else n.map fun n => ⟨n.kind, .lost, attempts, some cause⟩

/-- The commands that resolve the address of a roll call, what each resolves it to, and the segment's stray count after
it (R33, R34). -/
inductive Resolving (s : State) (i : Fin 8) (g : Segment) (tx : Transaction) (rc : RollCall) :
    Instr → Option Resolved → Nat → Prop
  /-- a valid reply, from an address the tables name or, in SAFE, from any -/
  | answer (frame : List Byte) (k : NodeKind) :
      readReply tx.addr .rollCall frame = .whole k .nothing → s.part = .safe ∨ g.nodes.look tx.addr ≠ none →
      Resolving s i g tx rc (.validRollCallReply i frame) (s.answerResolves (g.nodes.look tx.addr) k) g.strays
  /-- a valid reply from an address the tables do not name: a stray, its count holding at 65,535 -/
  | stray (frame : List Byte) (k : NodeKind) :
      readReply tx.addr .rollCall frame = .whole k .nothing → s.part ≠ .safe → g.nodes.look tx.addr = none →
      Resolving s i g tx rc (.validRollCallReply i frame) none (counted g.strays)
  /-- the last attempt times out -/
  | timeout (m : Nat) : rc.threshold = some m → m ≤ rc.attempts + 1 →
      Resolving s i g tx rc (.replyTimeout i)
        (s.silenceResolves (g.nodes.look tx.addr) (rc.attempts + 1) .timeout) g.strays
  /-- a gap ends the last attempt -/
  | gap (m : Nat) : rc.threshold = some m → m ≤ rc.attempts + 1 →
      Resolving s i g tx rc (.replyGap i)
        (s.silenceResolves (g.nodes.look tx.addr) (rc.attempts + 1) .check) g.strays
  /-- a bad frame ends the last attempt -/
  | bad (m : Nat) (frame : List Byte) : rc.threshold = some m → m ≤ rc.attempts + 1 →
      readReply tx.addr .rollCall frame = .bad →
      Resolving s i g tx rc (.replyBadFrame i frame)
        (s.silenceResolves (g.nodes.look tx.addr) (rc.attempts + 1) .check) g.strays

/-- The results a recovery roll call holds back once its address is resolved (R42). -/
def RollCall.holding (rc : RollCall) (a : Nat) (found : Option Resolved) : Table Resolved :=
  match found with
  | some r => rc.results.put a r
  | none => rc.results

/-- What a roll call writes to each address's record once its address is resolved: in DISCOVERING that address's
result, at the end of one in RECOVERING every result held back (R33, R43). -/
def Segment.written (g : Segment) (rc : RollCall) (addr : Nat) (found : Option Resolved) (a : Nat) : Option Resolved :=
  if g.state = .recovering then (rc.holding addr found).look a else if a = addr then found else none

/-- A node's record with what a roll call resolved for it, its confirmed value UNKNOWN where it so leaves a reachable
state for LOST or MISMATCH (R26, R33, R43). -/
def Node.resolvedTo (n : Node) (r : Resolved) : Node :=
  { n with
    state := r.state, misses := r.misses, cause := r.cause
    confirmed := if n.state.reachable = true ∧ r.state.gone = true then none else n.confirmed }

/-- What the passing of nodes of a segment to LOST or MISMATCH does to the records of the blocks that own what they
carry; `lost k a` says that the node at address a, of kind k, is one of them, and `back k a` that it becomes PRESENT in
the same event. -/
structure NodesLost (s t : State) (i : Nat) (lost : NodeKind → Nat → Bool)
    (back : NodeKind → Nat → Bool := fun _ _ => false) : Prop where
  /-- the other segments keep all but commanded values -/
  others : othersShaped i s t
  /-- the bays a lost BAY node watches are UNKNOWN, without value, deadline or hold (R58) -/
  bays : ∀ b r, s.bays.look b = some r → t.bays.look b = some
    (if r.seg = i ∧ lost .bay r.addr = true then
      { r with occ := .unknown, raw := none, deadline := none, hold := none } else r)
  /-- the holds on those bays have ended BAY_LOST and the others stand (R153) -/
  holds : t.holds = s.holds.filter fun e => !s.bayOn i (lost .bay) e.2.bay
  ends : ∀ p, t.ends.at p = s.endedInto (fun h => s.bayOn i (lost .bay) h.bay) .bayLost p
  /-- the channels of a lost GAS node have no status and keep their reading (R70) -/
  channels : ∀ c x, s.gas.look c = some x → t.gas.look c = some
    (if x.seg = i ∧ lost .gas x.addr = true then { x with status := none } else x)
  /-- a zone left without a valid channel has its loss timer running (R82) -/
  timers : ∀ z a, s.zones.has z = true → s.air.look z = some a →
    (s.gas.any fun e => e.2.zone == z && e.2.seg == i && back .gas e.2.addr) = false → t.air.look z = some
    (if (s.gas.any fun e => e.2.zone == z && e.2.seg == i && lost .gas e.2.addr) = true ∧ t.sensed z = false then
      { a with lossStart := some (a.lossStart.getD s.timebase) } else a)
  /-- a lost node's drive is UNAVAILABLE and its reported state absent (R96) -/
  drives : ∀ d x, s.drives.look d = some x → ¬ (x.seg = i ∧ back .drive x.addr = true) → t.drives.look d = some
    (if x.seg = i ∧ lost .drive x.addr = true then { x with avail := .unavailable, reported := none } else x)
  /-- a WAITING drive is AVAILABLE once its node is PRESENT, and so is the drive of a node that comes back from LOST or
  MISMATCH (R96) -/
  returns : ∀ d x, s.drives.look d = some x → x.seg = i → back .drive x.addr = true →
    x.avail = .waiting ∨ (s.nodeState i x.addr).gone = true →
    t.drives.look d = some { x with avail := .available }
  /-- a drive that so became UNAVAILABLE raises DRIVE_FAULT, and its shaft's rating or its zone's jet fault follows
  (R98, R99) -/
  faults : ∀ d x, s.drives.look d = some x → x.seg = i → lost .drive x.addr = true → x.avail ≠ .unavailable →
    (∀ p, setHas (s.notices.at p).routing .driveFault = true → setHas (t.notices.at p).pending .driveFault = true)
    ∧ (∀ n rated k, x.duty = .shaft n rated → s.shafts.look n = some k →
        ∃ k', t.shafts.look n = some k' ∧ k'.rating = t.availableRating n)
    ∧ ∀ z v, x.duty = .jet z → s.vent.look z = some v → ∃ v', t.vent.look z = some v' ∧ v'.jetFault = true
  /-- what a lost node's sign shows is UNKNOWN (R168) -/
  signs : ∀ k g, s.signs.look k = some g → ∃ g', t.signs.look k = some g'
    ∧ g' = { g with target := g'.target, shown := if g.seg = i ∧ lost .sign g.addr = true then none else g.shown }
  /-- FIELD_FAULT is raised (R26) -/
  fieldFault : (∃ k a, lost k a = true) →
    ∀ p, setHas (s.notices.at p).routing .fieldFault = true → setHas (t.notices.at p).pending .fieldFault = true

/-- The fixed command of a node found in SAFE, and the record it gets (R22, R46; the absent fields: log entry 26). -/
def safeRecord (k : NodeKind) : Node :=
  { kind := k, state := .present, misses := 0, cause := none, confirmed := none, lastReply := none
    commanded := match k with
      | .drive | .lamp => some (.percent 100)
      | .sign => some (.display .closed)
      | .bay | .gas => none }

/-- Whether `a` is the next of some addresses in rotation after `last`: the lowest above it, or the lowest of all. -/
def nextInTurn (last a : Nat) (among : Nat → Prop) : Prop :=
  among a ∧ ∀ b, among b → (last < a ∧ (last < b → a ≤ b)) ∨ (a ≤ last ∧ b ≤ last ∧ a ≤ b)

/-- Whether a node of a segment in SAFE is in its cycle (R22, R46). -/
def Segment.cyclesInSafe (g : Segment) (a : Nat) : Prop :=
  ∃ n, g.nodes.look a = some n ∧ n.state.reachable = true ∧ (n.kind = .drive ∨ n.kind = .lamp ∨ n.kind = .sign)

/-- The records of an image's tables that name a (segment, address) pair, by the kind they imply (R7). -/
def Site.names (w : Site) (i a : Nat) (k : NodeKind) : Prop :=
  match k with
  | .bay => ∃ e ∈ w.bays, e.2.seg = i ∧ e.2.addr = a
  | .gas => ∃ e ∈ w.gas, e.2.seg = i ∧ e.2.addr = a
  | .drive => ∃ e ∈ w.drives, e.2.seg = i ∧ e.2.addr = a
  | .lamp => ∃ e ∈ w.lamps, e.2.seg = i ∧ e.2.addr = a
  | .sign => ∃ e ∈ w.signs, e.2.seg = i ∧ e.2.addr = a

/-- The second pass of R10 over values by setpoint number, in the rule's order. -/
def legalised (first : Nat → Nat) (n : Nat) : Nat :=
  let u1 := clamp 50 1940 (first 7)
  let u2 := clamp (u1 + 20) 1960 (first 8)
  let u3 := clamp (u2 + 20) 1980 (first 9)
  let u4 := clamp (u3 + 20) 2000 (first 10)
  let f2 := max (first 20) (first 19)
  let f3 := max (first 21) f2
  let j2 := max (first 24) (first 23)
  let j3 := max (first 25) j2
  let standby := max (first 33) (first 32)
  match n with
  | 7 => u1 | 8 => u2 | 9 => u3 | 10 => u4
  | 20 => f2 | 21 => f3 | 22 => max (first 22) f3
  | 24 => j2 | 25 => j3 | 26 => max (first 26) j3
  | 14 => clamp 100 (first 13 - 50) (first 14)
  | 16 => clamp 200 (first 15 - 100) (first 16)
  | 33 => standby | 34 => max (first 34) standby
  | _ => first n

/-! ### Further forms the part keeps -/

/-- A port of role FIRE holds the FIRE right, a port of another role or of none does not (R189). -/
def PortRecord.fireSound (r : PortRecord) : Bool := r.rights.fire == (r.role == some .fire)

/-- R189 at every port. -/
def State.fireSound (s : State) : Bool := s.ports.toList.all PortRecord.fireSound

/-- The relations that R10's second pass makes of a held set, each setpoint in its own range (R10, Table 1-3). -/
def setpointsLegal (sp : List Nat) : Bool :=
  decide (sp.length = 38)
    && (List.range 38).all (fun n => clampOwn n (spOf sp n) == spOf sp n)
    && decide (spOf sp 7 + 20 ≤ spOf sp 8) && decide (spOf sp 8 + 20 ≤ spOf sp 9) && decide (spOf sp 9 + 20 ≤ spOf sp 10)
    && decide (spOf sp 19 ≤ spOf sp 20) && decide (spOf sp 20 ≤ spOf sp 21) && decide (spOf sp 21 ≤ spOf sp 22)
    && decide (spOf sp 23 ≤ spOf sp 24) && decide (spOf sp 24 ≤ spOf sp 25) && decide (spOf sp 25 ≤ spOf sp 26)
    && decide (spOf sp 14 + 50 ≤ spOf sp 13) && decide (spOf sp 16 + 100 ≤ spOf sp 15)
    && decide (spOf sp 32 ≤ spOf sp 33) && decide (spOf sp 33 ≤ spOf sp 34)

/-- A drive's node is named by no other drive, lamp channel or sign (R7). -/
def State.ownNode (s : State) (d : Nat) (x : Drive) : Bool :=
  s.drives.all (fun e => e.1 == d || !(e.2.seg == x.seg && e.2.addr == x.addr))
    && s.lamps.all (fun e => !(e.2.seg == x.seg && e.2.addr == x.addr))
    && s.signs.all (fun e => !(e.2.seg == x.seg && e.2.addr == x.addr))

/-- A drive's node, where it has a record, is commanded a percentage (R29). -/
def State.drivenAt (s : State) (x : Drive) (v : Nat) : Bool :=
  match s.node x.seg x.addr with
  | some n => n.commanded == some (.percent v)
  | none => true

/-- A record's effective stage is the highest, not above its wanted stage, whose flow is at or below a flow (R95, R103). -/
def State.stageCarried (s : State) (flow : Nat) (v : VentZone) : Bool :=
  decide (v.effective ≤ v.wanted) && decide (s.stageFlow v.effective ≤ flow)
    && (List.range 5).all fun n => decide (n ≤ v.effective) || decide (v.wanted < n) || decide (flow < s.stageFlow n)

/-- The ventilation unit's records have the form the rules give them, in smoke mode too: every ring holds each zone of its
shaft once and no other zone, a zone's shaft is configured, every configured zone has a record, stages lie in 0 to 4, every
shaft's rating and capacity follow its drives and the supply, and without an installation there are no tables (R21, R99,
R106, Tables 5-1 and 5-3). -/
def State.plantFormed (s : State) : Bool :=
  s.shafts.all (fun e => decide e.2.ring.Nodup && e.2.ring.all (fun z => s.shaftOf z == some e.1)
      && e.2.rating == s.availableRating e.1
      && e.2.capacity == (if s.supply = .restricted then e.2.rating * s.sp 28 / 100 else e.2.rating))
    && s.zones.all (fun e => match e.2.shaft with
      | none => true
      | some n => match s.shafts.look n with
        | some k => k.ring.contains e.1
        | none => false)
    && s.vent.places == s.zones.places
    && s.vent.all (fun e => decide (e.2.computed ≤ 4) && decide (e.2.alarmMin ≤ 4) && decide (e.2.wanted ≤ 4))
    && s.status.all (fun e => decide (e.2.forcedStage.getD 0 ≤ 4))
    && (s.part == .discovering || s.part == .run
      || (s.zones.isEmpty && s.shafts.isEmpty && s.drives.isEmpty && s.smoke.isNone))

/-- Outside smoke mode every shaft stands as its last recomputation leaves it: each zone of its ring holds its allocation
and the highest stage it carries, the shaft their sum and the speed of it; a zone with no shaft holds no allocation and the
highest stage its want carries; and every AVAILABLE drive with a node of its own is commanded its shaft's speed, or the jet
speed of its zone's effective stage (R95, R100 to R105). -/
def State.plantShared (s : State) : Bool :=
  s.smoke.isSome
    || (s.shafts.all (fun e =>
        let share := s.tabledShare e.2.capacity e.2.ring
        e.2.flow == (e.2.ring.map share).sum && e.2.speed == s.tabledSpeed e.2.flow e.2.rating
          && e.2.ring.all fun z => match s.vent.look z with
            | some v => v.alloc == some (share z) && s.stageCarried (share z) v
            | none => false)
      && s.zones.all (fun e => e.2.shaft.isSome || match s.vent.look e.1 with
          | some v => v.alloc == none && s.stageCarried v.want v
          | none => false)
      && s.drives.all fun e => e.2.avail != .available || !s.ownNode e.1 e.2 || match e.2.duty with
          | .shaft n _ => match s.shafts.look n with
            | some k => s.drivenAt e.2 k.speed
            | none => true
          | .jet z => match s.vent.look z with
            | some v => s.drivenAt e.2 (s.jetSpeed v.effective)
            | none => true)

/-- The live holds whose route contains a zone (R149). -/
def holdsThrough (holds : Table Hold) (z : Nat) : Nat := (holds.filter fun e => e.2.route.contains z).length

/-- No live hold names a bay in UNKNOWN (R60: a held bay stands in FREE or SETTLING_IN). -/
def State.heldBaysKnown (s : State) : Bool :=
  s.holds.all fun e => match s.bays.look e.2.bay with
    | some b => b.occ != .unknown
    | none => true

/-- Every zone's escort count is the number of live holds whose route contains it; routes repeat no zone, and the
hold table is empty before the tables are installed (R6, R149, R161). -/
def State.escortsSound (s : State) : Bool :=
  s.escorts.all (fun e => e.2 == holdsThrough s.holds e.1)
    && s.holds.all (fun e => decide e.2.route.Nodup) && s.routes.all (fun e => decide e.2.Nodup)
    && (s.part != .loading || s.holds.isEmpty)

end Sys2Proof.Machine
end

