-- ==== Sys2Proof/WellFormed.lean ====
section
/-! DEFINITION. The commands the part's lines, timers and tables can bring: the checks on a command's
operands. exec is total; these are the operands for which a row of the table stands. -/

namespace Sys2Proof

/-- A zone's index (R1). -/
def zoneOk (z : Nat) : Bool := decide (z < 64)

/-- A bay's index (Table 1-1). -/
def bayOk (b : Nat) : Bool := decide (b < 2048)

/-- A sign's index (R163). -/
def signOk (k : Nat) : Bool := decide (k < 48)

/-- The bytes of a field reply: at most a BAY node's 20 (Table 2-4). -/
def fieldFrameOk (frame : List Byte) : Bool := decide (frame.length ≤ 20)

/-- The bytes of a whole request frame: start, length, a body of 1 to 256, and check (Table 10-2). -/
def stationFrameOk (frame : List Byte) : Bool := decide (5 ≤ frame.length) && decide (frame.length ≤ 260)

/-- A list of zones whose request body holds at most 256 bytes, beside `others` bytes of code and fields
and the count byte (Table 10-2). -/
def listOk (others : Nat) (zs : List Byte) : Bool := decide (others + 1 + zs.length ≤ 256)

/-- A list of pairs whose request body holds at most 256 bytes (Table 10-2). -/
def pairsOk (ps : List (Byte × BitVec 16)) : Bool := decide (2 + 3 * ps.length ≤ 256)

/-- The check of a command's operands. -/
def Instr.wellFormed : Instr → Bool
  | .settleInComplete b | .settleOutComplete b => bayOk b
  | .activeDeadline z | .standbyDeadline z | .sensorGraceExpiry z => zoneOk z
  | .pacingIntervalEnd k => signOk k
  | .goodPollReply _ f | .goodSetReply _ f | .validRollCallReply _ f | .replyWrongKind _ f | .replyBadFrame _ f =>
    fieldFrameOk f
  | .stationFrameComplete _ f => stationFrameOk f
  | .setSetpoints _ ps => pairsOk ps
  | .setRoute _ _ _ zs | .setRamp _ _ _ zs | .setSign _ _ _ zs => listOk 3 zs
  | .setRing _ _ zs => listOk 2 zs
  | .coldReset | .resetReleased | .imageReadDone _ | .secondEvent | .minuteClose | .holdExpiry | .overrideLapse
  | .wakeActiveEnd _ | .wakeEnd _ | .rollCallSent _ | .pollSent _ | .setSent _ | .probeDue _ | .replyGap _
  | .replyTimeout _ | .hangDetected _ | .hungIdleTest _ _ | .hungNodeLoss _ | .stationBadLength _ _
  | .stationGapTimeout _ | .discardQuietEnd _ | .replySent _ | .readStatus _ | .readOptions _ | .readZone _ _
  | .readFreeCounts _ | .readBays _ _ _ | .readHolds _ _ | .readHoldEnds _ | .readShaft _ _ | .readNode _ _ _
  | .readSegment _ _ | .readSign _ _ | .readDose _ _ | .entry _ _ _ | .exit _ _ _ | .requestBay _ _ _ _
  | .releaseHold _ _ _ | .setZone _ _ _ _ _ | .setBay _ _ _ _ | .setLast _ _ | .setRotation _ _ _
  | .overrideStage _ _ _ | .overrideLight _ _ _ | .holdOut _ _ _ | .closeZone _ _ | .openZone _ _ | .supply _ _
  | .smoke _ _ | .smokeClear _ | .setRights _ _ _ | .lockRights _ _ | .setRouting _ _ _ | .setNoticeMask _ _
  | .setAutoAck _ _ | .restart _ | .pollNotice _ | .ackNotice _ _ | .stationStartByte _ | .requesterFrameEnd _ => true

end Sys2Proof
end

