-- ==== Sys2Proof/Certificates/Slice0/Obligations.lean ====
section
/-! DEFINITION. The statements for the provers, in the order of OBLIGATIONS.json but for `ShaftsStayRecomputed` (O26):
the machine and its start-up, the timebase, the field segments, the station lines, the requests, the shared operations,
and the forms that every step keeps. -/

open Sys2Proof Sys2Proof.Machine

/-! ### The machine and its start-up -/

/-- One step takes the command at the front of the queue and is exec of it on the state with the queue's rest. On an
empty queue the part idles, which is the model's choice (log entry 5). -/
def Obligations.StepTakesFrontCommand : Prop :=
  (∀ (c : Instr) (rest : List Instr) (s : State),
    step { s with pending := c :: rest } = exec c { s with pending := rest })
  ∧ ∀ s : State, s.pending = [] → step s = .next s

/-- From R18, R19 and R21: a cold reset leaves every block at its cold-reset value with the pin low, whatever the state
was; while the pin is low nothing but the pin's own two events is taken; the release of a low pin changes nothing but
the pin, and begins the image read with the header, at bus address 1010000 binary and memory address 0. Of this
the model's own are: that COLD_RESET leaves the pin low and keeps the queue, and that a low pin takes its own two events
alone (log entry 4); that imageBus is empty while the pin is low (log entry 35); and that the release of a pin that is high
changes nothing (log entry 1). The values of State.reset are those the manual gives: R21 (part state, restart count,
rejection record, timebase, tables, smoke mode), R136 (supply, lapse), R161 (hold table, pointer, end lists), R183 and R196
(ports; the empty rights stand for rights not yet in force, log entry 17), R44 (engines stopped), R203 (attention lines
released, no baseline). -/
def Obligations.ColdResetValues : Prop :=
  (∀ s : State,
    exec .coldReset s = .next { State.reset with resetLow := true, imageBus := [], pending := s.pending }
    ∧ (s.resetLow = true →
        exec .resetReleased s = .next { s with resetLow := false, imageBus := [⟨0b1010000#7, [0#8, 0#8], 4⟩] })
    ∧ (s.resetLow = false → exec .resetReleased s = .next s)
    ∧ exec .resetReleased { State.reset with resetLow := true, imageBus := [] } = .next State.reset)
  ∧ (∀ (c : Instr) (s : State), s.resetLow = true → c ≠ .coldReset → c ≠ .resetReleased → exec c s = .next s)
  ∧ State.reset.part = .loading ∧ State.reset.restarts = 0 ∧ State.reset.rejection = none ∧ State.reset.timebase = 0
  ∧ State.reset.setpoints = [] ∧ State.reset.zones = [] ∧ State.reset.bays = [] ∧ State.reset.smoke = none
  ∧ State.reset.supply = .normal ∧ State.reset.lapse = .watching
  ∧ State.reset.holds = [] ∧ State.reset.holdPtr = 63 ∧ State.reset.rate = .b19200
  ∧ (∀ p, State.reset.ends.at p = ⟨[], false⟩)
  ∧ (∀ p, (State.reset.ports.at p).rx = .idle ∧ (State.reset.ports.at p).tx = none
      ∧ (State.reset.ports.at p).errors = 0 ∧ (State.reset.ports.at p).overruns = 0
      ∧ (State.reset.ports.at p).locked = false ∧ (State.reset.ports.at p).lastRequest = 0
      ∧ ∀ r, (State.reset.ports.at p).rights.has r = false)
  ∧ (∀ i, i < 8 → (State.reset.seg i).phase = .quiet ∧ (State.reset.seg i).driving = false)
  ∧ (∀ p, (State.reset.notices.at p).line = false ∧ (State.reset.notices.at p).baseline = none)

/-- From R18, R19 and R22: what the image read rejects, and with which cause. No acknowledgement at the header, MISSING; a
wrong format code or a length below 32, FORMAT, whatever follows; no acknowledgement of the rest, MISSING; a sum other
than the check, CHECK. Up to a FORMAT fault the reader has asked for the four bytes at memory address 0 alone; after it,
for the rest of the length from address 4 too, each at bus address 1010000 binary with the most significant address byte
first (log entry 35 has what the manual leaves unsaid of the bus). With the right sum the body is judged, and the first failure is a CONTENT fault of its section: a
code in the option block that names nothing, more than 38 setpoints, a level count outside 1 to 8, each without an entry;
a zone entry with a zone above 63, a level not below the count or a shaft number that names no place (log entry 18), a
zone given twice, or a zone of a shaft that section 4 lacks, with section 3 and the zone's index; bytes left over after
section 11, with section 11 (log entry 19). A rejected image takes the part from LOADING to SAFE, with the rejection
record held, every segment in discovery with no node record, and each port in the VIEW role with counts 0 and no lock. -/
def Obligations.RejectedImageEntersSafe : Prop :=
  (∀ (f1 f0 l1 l0 : Byte) (rest : List Byte) (ack : Bool),
    let header : BusRead := ⟨0b1010000#7, [0#8, 0#8], 4⟩
    (∀ bs, imageVerdict ⟨false, ack, bs⟩ = .rejected ⟨.missing, none, none⟩ ∧ imageReads ⟨false, ack, bs⟩ = [header])
    ∧ (word16 f1 f0 ≠ 0x5A2E ∨ word16 l1 l0 < 32 →
        imageVerdict ⟨true, ack, f1 :: f0 :: l1 :: l0 :: rest⟩ = .rejected ⟨.format, none, none⟩
        ∧ imageReads ⟨true, ack, f1 :: f0 :: l1 :: l0 :: rest⟩ = [header])
    ∧ (word16 f1 f0 = 0x5A2E → 32 ≤ word16 l1 l0 → imageReads ⟨true, ack, f1 :: f0 :: l1 :: l0 :: rest⟩ =
        [header, ⟨0b1010000#7, [0#8, 4#8], word16 l1 l0 - 4⟩])
    ∧ (word16 f1 f0 = 0x5A2E → 32 ≤ word16 l1 l0 →
        imageVerdict ⟨true, false, f1 :: f0 :: l1 :: l0 :: rest⟩ = .rejected ⟨.missing, none, none⟩)
    ∧ (∀ (body : List Byte) (hi lo : Byte), rest = body ++ [hi, lo] → word16 f1 f0 = 0x5A2E → 32 ≤ word16 l1 l0 →
        word16 l1 l0 = 6 + body.length →
        imageVerdict ⟨true, true, f1 :: f0 :: l1 :: l0 :: rest⟩ =
          if sumNat (f1 :: f0 :: l1 :: l0 :: body) % 65536 = word16 hi lo then judgeBody body
          else .rejected ⟨.check, none, none⟩))
  ∧ (∀ (r0 r1 r2 r3 rate silence reply segs : Byte) (rest : List Byte),
    let fault := fun (sect : Nat) (entry : Option Nat) => ImageVerdict.rejected ⟨.content, some sect, entry⟩
    let block := [r0, r1, r2, r3, rate, silence, reply, segs]
    (rest.length < 8 → judgeBody rest = fault 0 none)
    ∧ (3 < r0.toNat ∨ 3 < r1.toNat ∨ 3 < r2.toNat ∨ 3 < r3.toNat ∨ 2 < rate.toNat ∨ 3 < silence.toNat ∨ 3 < reply.toNat →
        judgeBody (block ++ rest) = fault 0 none)
    ∧ (r0.toNat ≤ 3 → r1.toNat ≤ 3 → r2.toNat ≤ 3 → r3.toNat ≤ 3 → rate.toNat ≤ 2 → silence.toNat ≤ 3 → reply.toNat ≤ 3 →
      (∀ n : Byte, 38 < n.toNat ∨ rest.length < 2 * n.toNat → judgeBody (block ++ n :: rest) = fault 1 none)
      ∧ ∀ (n level : Byte) (values : List Byte), n.toNat ≤ 38 → values.length = 2 * n.toNat →
        let head := block ++ n :: values ++ [level]
        (level.toNat = 0 ∨ 8 < level.toNat → judgeBody (head ++ rest) = fault 2 none)
        ∧ (1 ≤ level.toNat → level.toNat ≤ 8 →
          (∀ hi lo z l k f : Byte, 1 ≤ word16 hi lo → 64 ≤ z.toNat ∨ level.toNat ≤ l.toNat ∨ (8 ≤ k.toNat ∧ k.toNat < 255) →
            judgeBody (head ++ [hi, lo, z, l, k, f] ++ rest) = fault 3 (some z.toNat))
          ∧ (∀ hi lo z l f l' k' f' : Byte, 2 ≤ word16 hi lo → z.toNat < 64 → l.toNat < level.toNat →
            judgeBody (head ++ [hi, lo, z, l, 255#8, f, z, l', k', f'] ++ rest) = fault 3 (some z.toNat))
          ∧ (∀ z l k f : Byte, z.toNat < 64 → l.toNat < level.toNat → k.toNat < 8 →
            judgeBody (head ++ [0#8, 1#8, z, l, k, f, 0#8, 0#8] ++ rest) = fault 3 (some z.toNat))
          ∧ (rest ≠ [] → judgeBody (head ++ List.replicate 18 0#8 ++ rest) = fault 11 none))))
  ∧ ∀ (r : ImageRead) (why : Rejection) (s : State),
    s.resetLow = false → s.part = .loading → imageVerdict r = .rejected why →
    ∃ t, exec (.imageReadDone r) s = .next t
      ∧ t = { s with part := .safe, rejection := some why, imageBus := imageReads r, segs := t.segs, ports := t.ports }
      ∧ (∀ p, t.ports.at p = { s.ports.at p with
            role := some .view, rights := ⟨true, false, false, false, false, false⟩, locked := false,
            errors := 0, overruns := 0 })
      ∧ (∀ i g, s.segs.look i = some g → t.segs.look i = some ⟨.discovering, .wakeActive, none, 0, 0, false, false, 0, 0, []⟩)

/-- R18, R19 and the reset rules of every block: an accepted image takes the part from LOADING to DISCOVERING, or to
RUN where no segment is in use, with the tables, setpoints and options installed and each port in its role. Every segment
in use starts discovery and the others stay OFF; every node the tables name has a record in EXPECTED with its kind's
cold commanded value, unless it is a LAMP or SIGN node, which its block has commanded by then. Each zone stands at its
cold values, with a loss timer where it has gas channels, and, smoke mode not standing, lit at the standby light; every
sign is cold with target FULL. Every bay is UNKNOWN without value, deadline, hold or glitch (R66), every gas channel without
reading and status (R88), every drive is WAITING with no reported state, and every shaft has an empty taken-for-service set
and zeros beside its mode and ring (R117). A port drops a frame it is receiving, and in all else but its role and rights it
is as it was (log entry 22). The reader has asked the memory for the header from address 0 and for the rest from address
4. -/
def Obligations.AcceptedImageInstalls : Prop :=
  ∀ (r : ImageRead) (site : Site) (s : State),
    s.resetLow = false → s.part = .loading → imageVerdict r = .accepted site →
    ∃ t, exec (.imageReadDone r) s = .next t
      ∧ t.part = (if site.options.segments = 0#8 then .run else .discovering)
      ∧ t.options = some site.options ∧ t.rate = site.options.rate ∧ t.levelCount = site.levelCount
      ∧ t.setpoints = site.setpoints ∧ t.zones = site.zones ∧ t.lamps = site.lamps ∧ t.routes = site.routes
      ∧ t.entryRamps = site.entryRamps ∧ t.exitRamps = site.exitRamps ∧ t.bays = site.bays ∧ t.gas = site.gas
      ∧ t.drives = site.drives ∧ t.shafts = site.shafts
      ∧ (∀ b x, t.bays.look b = some x →
          x = ⟨x.zone, x.kind, x.seg, x.addr, x.slot, x.outOfUse, .unknown, none, none, none, 0⟩)
      ∧ (∀ c x, t.gas.look c = some x → x.reading = none ∧ x.status = none)
      ∧ (∀ d x, t.drives.look d = some x → x.avail = .waiting ∧ x.reported = none)
      ∧ (∀ n k, t.shafts.look n = some k → k = ⟨k.mode, k.ring, [], 0, 0, 0, 0⟩)
      ∧ (∀ p, t.ports.at p = { s.ports.at p with
            role := some (site.options.roles.at p), rights := (site.options.roles.at p).rights
            rx := if (s.ports.at p).rx = .receiving then .idle else (s.ports.at p).rx }
          ∧ t.notices.at p = ⟨(site.options.roles.at p).routing, 0, 0, 0, false, none, false⟩)
      ∧ (∀ i, i < 8 → site.options.segments.getLsbD i = false →
          t.segs.look i = some ⟨.off, .quiet, none, 0, 0, false, false, 0, 0, []⟩)
      ∧ (∀ i, i < 8 → site.options.segments.getLsbD i = true → ∃ g,
          t.segs.look i = some g ∧ g = ⟨.discovering, .wakeActive, none, 0, 0, false, false, 0, 0, g.nodes⟩
          ∧ (∀ a k, site.names i a k → ∃ n, g.nodes.look a = some n)
          ∧ ∀ a n, g.nodes.look a = some n → site.names i a n.kind
              ∧ n = ⟨n.kind, .expected, 0, none, n.commanded, none, none⟩
              ∧ (¬ site.names i a .lamp → ¬ site.names i a .sign → n.commanded = match n.kind with
                | .bay | .gas => none
                | .drive => some (.percent 0)
                | .lamp => some (.percent 100)
                | .sign => some (.display .blank)))
      ∧ (∀ z e, site.zones.look z = some e →
          t.free.look z = some ⟨0, 0, 0, 0⟩ ∧ t.escorts.look z = some 0
          ∧ t.status.look z = some ⟨⟨false, false, false⟩, none, none, false⟩
          ∧ t.air.look z = some ⟨0, 0, 0, 0, 0, 0, List.replicate 15 none, 0, none, false, false, false,
              if (site.gas.any fun c => c.2.zone == z) = true then some 0 else none, false⟩
          ∧ t.vent.look z = some ⟨0, 0, 0, 0, e.baseFlow, e.baseFlow, e.shaft.map fun _ => 0, 0, false⟩
          ∧ (s.smoke = none →
              t.lights.look z = some ⟨.standby, some (s.timebase + t.sp 36), 0, t.sp 33, .standby, false, none⟩))
      ∧ (∀ k g, s.smoke = none → site.signs.look k = some g → g.zones ≠ [] →
          t.signs.look k = some ⟨g.seg, g.addr, g.filter, g.zones, .full, .opened, none, none, none⟩)
      ∧ (∃ length, t.imageBus = [⟨0b1010000#7, [0#8, 0#8], 4⟩, ⟨0b1010000#7, [0#8, 4#8], length - 4⟩]
          ∧ length ≤ r.bytes.length ∧ length = word16 (r.bytes.getD 2 0) (r.bytes.getD 3 0))
      ∧ Keeps { segs := true, engine := true, bays := true, free := true, gas := true, air := true, drives := true, vent := true,
                shafts := true, status := true, escorts := true, signs := true, lights := true, notices := true,
                part := true, ports := true, tables := true, setpoints := true }
          { s with imageBus := t.imageBus, rate := t.rate, options := t.options, levelCount := t.levelCount, lamps := t.lamps } t

/-! ### The timebase -/

/-- R20, R83, R127: in RUN a second event advances the timebase by one, holding at its maximum, issues a minute
close at each multiple of 60, and reports the lapse condition; it leaves every record but the model's marks
(log entry 2) as it was. Outside RUN it changes nothing. -/
def Obligations.SecondEventAdvances : Prop :=
  ∀ s : State, s.resetLow = false →
    (s.part = .run → ∃ t, exec .secondEvent s = .next t
      ∧ t.timebase = min (s.timebase + 1) (max s.timebase 4294967295)
      ∧ (t.minuteDue = true ↔ s.minuteDue = true ∨ (t.timebase ≠ s.timebase ∧ t.timebase % 60 = 0))
      ∧ t.lapseHolds = t.lapseCondition
      ∧ (t.lapse = if t.lapseCondition then s.lapse else .watching)
      ∧ (∀ z a, s.air.look z = some a → t.air.look z = some { a with graceDue :=
          match a.lossStart with
          | some d => !a.loss && decide (s.sensorGrace ≤ t.timebase - d)
          | none => false })
      ∧ Keeps { clock := true, lapse := true, air := true } s t)
    ∧ (s.part ≠ .run → exec .secondEvent s = .next s)

/-- R75, R76, R78, R79, R81: at a minute close every configured zone's record goes through the eight steps, and each D
update gives the zone its stage by R91 (outside smoke mode, where stages stand: R113) and its figures by R92 to R94. A
rise of the AIR state adds AIR to the zone's closure set and a fall removes it (R84, R123); the holds of the zones that
so close end AIR_CLOSED (R120), and a changed alarm raises AIR_ALARM. The tables stand in canonical form, so no zone is
taken twice. -/
def Obligations.MinuteCloseTakesEveryZone : Prop :=
  ∀ s : State, s.resetLow = false → s.part = .run → s.minuteDue = true → s.tablesRising = true →
    ∃ t, exec .minuteClose s = .next t ∧ t.minuteDue = false ∧ t.timebase = s.timebase
      ∧ (∀ z a, s.zones.has z = true → s.air.look z = some a →
          let bin := if a.binCount = 0 then none else some (a.binSum / a.binCount)
          let ring := a.ring.set a.writePos bin
          let a15 := ringMean ring
          let credit := a.credit * 3 / 4
          let peak := a.peak && !decide (a.smooth < s.peakClear)
          let dose := match a15 with
            | none => a.dose
            | some m => if s.doseLimit ≤ m then true else if m < s.doseClear then false else a.dose
          let airState := peak || dose
          t.air.look z = some { a with
            ring := ring, writePos := if a.writePos = 14 then 0 else a.writePos + 1, binSum := 0, binCount := 0
            a15 := a15, credit := credit, demand := min 2000 (a.smooth + credit), peak := peak, dose := dose }
          ∧ (∀ v, s.vent.look z = some v → ∃ v', t.vent.look z = some v'
              ∧ (v'.computed, v'.dwell) =
                  (if s.smoke = none then s.tabledStage (min 2000 (a.smooth + credit)) v else (v.computed, v.dwell))
              ∧ (s.smoke = none → t.figuredAs z v'))
          ∧ (∀ r, s.status.look z = some r → t.status.look z = some { r with closure := { r.closure with
              air := if airState = (a.peak || a.dose) then r.closure.air else airState } })
          ∧ (peak ≠ a.peak ∨ dose ≠ a.dose → ∀ p, setHas (s.notices.at p).routing .airAlarm = true →
              setHas (t.notices.at p).pending .airAlarm = true))
      ∧ t.holds = (s.holds.filter fun e => !(s.zoneOpen e.2.zone && !t.zoneOpen e.2.zone))
      ∧ (∀ p, t.ends.at p = s.endedInto (fun h => s.zoneOpen h.zone && !t.zoneOpen h.zone) .airClosed p)
      ∧ Keeps { segs := true, bays := true, free := true, air := true, vent := true, shafts := true, status := true,
                holds := true, escorts := true, ends := true, signs := true, lights := true, notices := true,
                clock := true } s t

/-- From R56 and R57: a settle-in completion makes the bay OCCUPIED, drops its deadline, gives the bay's zone a movement,
and ends the hold on the bay, if it has one, FULFILLED. A settle-out completion makes the bay FREE, drops its deadline,
gives the bay's zone a movement and the UNKNOWN credit with its D update, and ends no hold; where the bay then counts as
free, its kind's count rises by one, every sign that lists the zone has its target found afresh (R63, R165), and
BAY_CHANGE becomes pending at exactly the ports that route it and hold another total for the zone (R198). -/
def Obligations.SettleCompletions : Prop :=
  (∀ (b : Nat) (r : Bay) (d : Nat) (s : State),
    s.resetLow = false → s.part = .run → s.bays.look b = some r → r.occ = .settlingIn → r.deadline = some d →
    d ≤ s.timebase → (∀ n, r.hold = some n → ∃ h, s.holds.look n = some h ∧ h.bay = b) →
    ∃ t, exec (.settleInComplete b) s = .next t
      ∧ t.bays.look b = some { r with occ := .occupied, deadline := none, hold := none }
      ∧ (∀ b', b' ≠ b → t.bays.look b' = s.bays.look b')
      ∧ t.holds = (match r.hold with
          | some n => s.holds.remove n
          | none => s.holds)
      ∧ (∀ n h, r.hold = some n → s.holds.look n = some h →
          t.ends.at h.port = (s.ends.at h.port).append ⟨n, b, h.zone, .fulfilled, s.timebase - h.created⟩
          ∧ (∀ p, p ≠ h.port → t.ends.at p = s.ends.at p)
          ∧ (setHas (s.notices.at h.port).routing .holdEnd = true →
              setHas (t.notices.at h.port).pending .holdEnd = true))
      ∧ (r.hold = none → t.ends = s.ends)
      ∧ (∀ l, s.lights.look r.zone = some l → ∃ l', t.lights.look r.zone = some l'
          ∧ l'.state = .active ∧ l'.deadline = some (s.timebase + s.activeHold))
      ∧ Keeps { bays := true, free := true, segs := true, holds := true, escorts := true, ends := true, signs := true,
                lights := true, notices := true } s t)
  ∧ ∀ (b : Nat) (r : Bay) (d : Nat) (a : AirZone) (s : State),
    s.resetLow = false → s.part = .run → s.bays.look b = some r → r.occ = .settlingOut → r.deadline = some d →
    d ≤ s.timebase → s.air.look r.zone = some a →
    ∃ t, exec (.settleOutComplete b) s = .next t
      ∧ t.bays.look b = some { r with occ := .free, deadline := none }
      ∧ (∀ b', b' ≠ b → t.bays.look b' = s.bays.look b')
      ∧ (∃ a', t.air.look r.zone = some a' ∧ a'.credit = min 1000 (a.credit + s.sp 6)
          ∧ a'.demand = min 2000 (a.smooth + a'.credit) ∧ a'.smooth = a.smooth)
      ∧ (∀ z, z ≠ r.zone → t.air.look z = s.air.look z)
      ∧ t.holds = s.holds
      ∧ (∀ l, s.lights.look r.zone = some l → ∃ l', t.lights.look r.zone = some l'
          ∧ l'.state = .active ∧ l'.deadline = some (s.timebase + s.activeHold))
      ∧ (r.hold = none → r.outOfUse = false → s.countsSound = true → s.zones.has r.zone = true → s.free.has r.zone = true →
          (∀ k, (t.freeOf r.zone).ofKind k = (s.freeOf r.zone).ofKind k + if k = r.kind then 1 else 0)
          ∧ (∀ z, z ≠ r.zone → t.freeOf z = s.freeOf z)
          ∧ (∀ k g, s.signs.look k = some g → r.zone ∈ g.zones →
              t.signs.look k = some { g with target := t.tabledTarget g })
          ∧ ∀ p, setHas (t.notices.at p).pending .bayChange = (setHas (s.notices.at p).pending .bayChange
              || (setHas (s.notices.at p).routing .bayChange && match (s.notices.at p).baseline with
                | none => false
                | some totals => match totals.look r.zone with
                  | none => false
                  | some n => n != (t.freeOf r.zone).total)))
      ∧ Keeps { bays := true, free := true, segs := true, air := true, vent := true, shafts := true, status := true,
                holds := true, escorts := true, ends := true, signs := true, lights := true, notices := true } s t

/-- R151: every live hold whose expiry time is at or below the timebase ends EXPIRED, in ascending slot order, onto its
making port's list, and the other holds stay live. -/
def Obligations.HoldExpiryEndsTheDueHolds : Prop :=
  ∀ s : State, s.resetLow = false → s.part = .run → s.tablesRising = true →
    ∃ t, exec .holdExpiry s = .next t
      ∧ t.holds = s.holds.filter (fun e => decide (s.timebase < e.2.expiry))
      ∧ (∀ p, t.ends.at p = s.endedInto (fun h => decide (h.expiry ≤ s.timebase)) .expired p)
      ∧ (∀ b r, s.bays.look b = some r → ∃ r', t.bays.look b = some r' ∧ r' = { r with hold := r'.hold })
      ∧ Keeps { bays := true, free := true, segs := true, holds := true, escorts := true, ends := true, signs := true,
                lights := true, notices := true } s t

/-- R150: the ending of a live hold empties its slot, clears its bay's hold reference, lowers the escort count of
each zone of its route, appends its entry to the making port's list, which drops its oldest entry and sets its overflow
flag where it held 16 (R157), and raises HOLD_END for that port alone. -/
def Obligations.EndHoldTakesFiveSteps : Prop :=
  ∀ (slot : Nat) (cause : EndCause) (h : Hold) (s : State),
    s.holds.look slot = some h → h.route.Nodup →
    (s.endHold slot cause).holds = s.holds.remove slot
    ∧ (∀ b, (s.endHold slot cause).bays.look b =
        (s.bays.look b).map fun r => if b = h.bay then { r with hold := none } else r)
    ∧ (∀ z, (s.endHold slot cause).escorts.look z =
        (s.escorts.look z).map fun n => if z ∈ h.route then n - 1 else n)
    ∧ (s.endHold slot cause).ends.at h.port =
        (let entry : EndEntry := ⟨slot, h.bay, h.zone, cause, s.timebase - h.created⟩
        if (s.ends.at h.port).entries.length < 16 then
          ⟨(s.ends.at h.port).entries ++ [entry], (s.ends.at h.port).overflow⟩
        else ⟨(s.ends.at h.port).entries.drop 1 ++ [entry], true⟩)
    ∧ (∀ p, p ≠ h.port → (s.endHold slot cause).ends.at p = s.ends.at p
        ∧ (s.endHold slot cause).notices.at p = s.notices.at p)
    ∧ (setHas (s.notices.at h.port).routing .holdEnd = true →
        setHas ((s.endHold slot cause).notices.at h.port).pending .holdEnd = true)
    ∧ (∀ z, z ∈ h.route → ∀ l, s.lights.look z = some l → ∃ l', (s.endHold slot cause).lights.look z = some l'
        ∧ l'.state = .active ∧ l'.deadline = some (s.timebase + s.activeHold))
    ∧ Keeps { bays := true, free := true, segs := true, holds := true, escorts := true, ends := true, lights := true,
              notices := true } s (s.endHold slot cause)

/-- R175: an ACTIVE zone whose deadline is reached enters STANDBY with a deadline one standby hold away, and a
STANDBY zone enters FLOOR with none; a zone in another light state, or before its deadline, is left alone. The zone is
then lit as Table 9-2 and R177 give it (when the cap counts as applied is log entry 37's choice), and its LAMP node, if it
has a lamp channel, is commanded that level (R178, R179). -/
def Obligations.LightDeadlines : Prop :=
  ∀ (z : Nat) (l : LightZone) (d : Nat) (s : State),
    s.resetLow = false → s.part = .run → s.lights.look z = some l → l.deadline = some d →
    let lit := fun (state : LightState) (deadline : Option Nat) (t : State) =>
      (∃ l', t.lights.look z = some l' ∧ t.litAsTabled z l'
        ∧ l' = ⟨state, deadline, l.escorts, l'.level, l'.line, l'.capped, l.failed⟩
        ∧ ∀ c p, s.lampOf z = some (c, p) → commandedTo s t p.seg p.addr l'.level)
      ∧ (∀ z', z' ≠ z → t.lights.look z' = s.lights.look z')
      ∧ Keeps { lights := true, segs := true } s t
    (d ≤ s.timebase → l.state = .active → ∃ t, exec (.activeDeadline z) s = .next t
      ∧ lit .standby (some (s.timebase + s.standbyHold)) t)
    ∧ (d ≤ s.timebase → l.state = .standby → ∃ t, exec (.standbyDeadline z) s = .next t ∧ lit .floor none t)
    ∧ (s.timebase < d ∨ l.state ≠ .active → exec (.activeDeadline z) s = .next s)
    ∧ (s.timebase < d ∨ l.state ≠ .standby → exec (.standbyDeadline z) s = .next s)

/-- R83, R84: SENSOR_LOSS is set in a zone that the last second event found at the sensor grace; the zone's S, T,
D and other alarms are as they were, its stage too, its alarm minimum follows its flags (R92), and AIR_ALARM is raised for
the ports that route it. -/
def Obligations.SensorGraceSetsLoss : Prop :=
  ∀ (z : Nat) (a : AirZone) (s : State),
    s.resetLow = false → s.part = .run → s.zones.has z = true → s.air.look z = some a → a.graceDue = true →
    a.loss = false →
    ∃ t, exec (.sensorGraceExpiry z) s = .next t
      ∧ t.air.look z = some { a with loss := true, graceDue := false }
      ∧ (∀ z', z' ≠ z → t.air.look z' = s.air.look z')
      ∧ (∀ v, s.vent.look z = some v → ∃ v', t.vent.look z = some v' ∧ v'.computed = v.computed ∧ v'.dwell = v.dwell
          ∧ v'.alarmMin = (if a.peak then 4 else if a.dose then 3 else s.sp 18)
          ∧ (s.smoke = none → t.figuredAs z v'))
      ∧ (∀ p, setHas (s.notices.at p).routing .airAlarm = true → setHas (t.notices.at p).pending .airAlarm = true)
      ∧ t.status = s.status ∧ t.holds = s.holds
      ∧ Keeps { segs := true, air := true, vent := true, shafts := true, notices := true } s t

/-- R128: a lapse clears every override record, raises FALLBACK for the ports that route it and leaves the
closures, the supply state and the holds alone. A zone whose forced stage or hold-out it clears has its figures found
afresh, outside smoke mode, and one whose forced light it clears is lit afresh (when the cap counts as applied is log
entry 37's choice). -/
def Obligations.LapseClearsOverrides : Prop :=
  ∀ s : State, s.resetLow = false → s.part = .run → s.lapseHolds = true → s.lapse = .watching →
    ∃ t, exec .overrideLapse s = .next t ∧ t.lapse = .lapsed ∧ t.lapseHolds = true
      ∧ (∀ z r, s.status.look z = some r → t.status.look z = some ⟨r.closure, none, none, false⟩)
      ∧ (∀ z r, s.zones.has z = true → s.status.look z = some r →
          (r.forcedStage ≠ none ∨ r.holdOut = true → s.smoke = none → ∀ v, s.vent.look z = some v →
            ∃ v', t.vent.look z = some v' ∧ v'.computed = v.computed ∧ t.figuredAs z v')
          ∧ (r.forcedLight ≠ none → ∀ l, s.lights.look z = some l → ∃ l', t.lights.look z = some l'
            ∧ l'.state = l.state ∧ t.litAsTabled z l'))
      ∧ (∀ p, setHas (s.notices.at p).routing .fallback = true → setHas (t.notices.at p).pending .fallback = true)
      ∧ Keeps { lapse := true, status := true, segs := true, vent := true, shafts := true, lights := true,
                notices := true } s t

/-! ### The field segments -/

/-- R28, R32, R166: the moments of the engine and of a sign's clock. The active part of a wake ends; the wake ends, the
driver is disabled and the roll call begins at address 1; the last byte of a requester frame leaves and its reply is
awaited; nothing else changes. The end of a sign's pacing interval opens its pacing, and a target that differs from its
node's commanded value is written. In another phase, and at a sign that is not pacing, the command changes nothing at
all, which is the model's reading of a command whose moment has not come (log entry 1). -/
def Obligations.EnginePhaseCommands : Prop :=
  (∀ (i : Fin 8) (g : Segment) (s : State), s.resetLow = false → s.segs.look i = some g →
    (g.phase = .wakeActive → ∃ t, exec (.wakeActiveEnd i) s = .next t
      ∧ t.segs.look i = some { g with phase := .wakeIdle } ∧ othersKept i s t ∧ Keeps { segs := true, engine := true } s t)
    ∧ (g.phase = .wakeIdle → ∃ t, exec (.wakeEnd i) s = .next t
      ∧ t.segs.look i = some { g with phase := .quiet, rollCall := some ⟨1, 0, none, []⟩ }
      ∧ othersKept i s t ∧ Keeps { segs := true, engine := true } s t)
    ∧ (∀ tx, g.phase = .sending tx → ∃ t, exec (.requesterFrameEnd i) s = .next t
      ∧ t.segs.look i = some { g with phase := .awaiting tx } ∧ othersKept i s t ∧ Keeps { segs := true, engine := true } s t)
    ∧ (g.phase ≠ .wakeActive → exec (.wakeActiveEnd i) s = .next s)
    ∧ (g.phase ≠ .wakeIdle → exec (.wakeEnd i) s = .next s)
    ∧ ((∀ tx, g.phase ≠ .sending tx) → exec (.requesterFrameEnd i) s = .next s))
  ∧ ∀ (k : Nat) (g : Sign) (n : Node) (s : State),
    s.resetLow = false → s.signs.look k = some g → s.node g.seg g.addr = some n →
    (g.pacing = .pacing → ∃ t, exec (.pacingIntervalEnd k) s = .next t
      ∧ t.signs.look k = some { g with pacing := .opened }
      ∧ (∀ k', k' ≠ k → t.signs.look k' = s.signs.look k')
      ∧ t.node g.seg g.addr = some { n with commanded := some (.display g.target) }
      ∧ Keeps { segs := true, signs := true } s t)
    ∧ (g.pacing = .opened → exec (.pacingIntervalEnd k) s = .next s)

/-- From R22, R27, R33, R38 and R46. With a roll call at hand on a quiet line, a ROLL CALL of three bytes goes to its
address, and its first attempt fixes the miss threshold it is judged by. A recovery probe falls due in RUNNING: on a
quiet line it is a ROLL CALL to the next address in rotation after the probe pointer, among the LOST and MISMATCH nodes,
in SAFE among the addresses 1 to 62 outside the cycle (log entry 21); with no such address it lapses; with a transaction
in flight it waits, and goes once that ends (the mark that it waits is the model's: log entry 9). Outside RUNNING nothing
changes (log entry 1). -/
def Obligations.RollCallsAndProbesAreSent : Prop :=
  (∀ (i : Fin 8) (g : Segment) (rc : RollCall) (s : State),
    s.resetLow = false → s.segs.look i = some g → g.phase = .quiet → g.rollCall = some rc →
    ∃ t, exec (.rollCallSent i) s = .next t
      ∧ t.segs.look i = some { g with
          rollCall := some { rc with threshold := some (rc.threshold.getD (if s.part = .safe then 3 else s.sp 37)) },
          phase := .sending ⟨.rollCall, rc.addr, false,
            [BitVec.ofNat 8 rc.addr, 1#8, BitVec.ofNat 8 rc.addr + 1#8]⟩ }
      ∧ othersKept i s t ∧ Keeps { segs := true, engine := true } s t)
  ∧ ∀ (i : Fin 8) (g : Segment) (s : State),
    s.resetLow = false → s.segs.look i = some g → g.nodes.rising = true →
    let candidate := fun (a : Nat) =>
      (s.part ≠ .safe ∧ ∃ n, g.nodes.look a = some n ∧ n.state.gone = true)
      ∨ (s.part = .safe ∧ 1 ≤ a ∧ a ≤ 62 ∧ ¬ g.cyclesInSafe a)
    let probed := fun (a : Nat) (t : State) =>
      t.segs.look i = some { g with
          probePtr := a, probeDue := false,
          phase := .sending ⟨.rollCall, a, true, requesterFrame a .rollCall []⟩ }
      ∧ othersKept i s t ∧ Keeps { segs := true, engine := true } s t
    (g.state ≠ .running → exec (.probeDue i) s = .next s)
    ∧ (g.state = .running → g.phase ≠ .quiet → ∃ t, exec (.probeDue i) s = .next t
      ∧ t.segs.look i = some { g with probeDue := true } ∧ othersKept i s t ∧ Keeps { segs := true, engine := true } s t)
    ∧ (g.state = .running → g.phase = .quiet → (∀ a, ¬ candidate a) → exec (.probeDue i) s = .next s)
    ∧ (∀ a, g.state = .running → g.phase = .quiet → nextInTurn g.probePtr a candidate →
        (∃ t, exec (.probeDue i) s = .next t ∧ probed a t)
        ∧ (g.rollCall = none → g.probeDue = true → ∃ t, exec (.rollCallSent i) s = .next t ∧ probed a t))

/-- R36, and R22 and R46 in SAFE: the node whose turn comes is the next in the cycle after the one last served. A BAY or
GAS node is sent a POLL; a DRIVE, LAMP or SIGN node a SET with the commanded value held (R29), reported to the sign unit
where it is a display (R167). In SAFE the cycle holds DRIVE, LAMP and SIGN nodes alone, so that nothing is polled and no
block is told. No due probe waits. -/
def Obligations.TurnsSendPollAndSet : Prop :=
  ∀ (i : Fin 8) (g : Segment) (a : Nat) (n : Node) (s : State),
    s.resetLow = false → s.segs.look i = some g → g.nodes.rising = true → g.state = .running →
    g.phase = .quiet → g.probeDue = false → g.nodes.look a = some n →
    nextInTurn g.lastServed a (fun b =>
      (s.part ≠ .safe ∧ ∃ m, g.nodes.look b = some m ∧ m.state.reachable = true) ∨ (s.part = .safe ∧ g.cyclesInSafe b)) →
    (n.kind = .bay ∨ n.kind = .gas → ∃ t, exec (.pollSent i) s = .next t
      ∧ t.segs.look i = some { g with lastServed := a, phase := .sending ⟨.poll, a, false, requesterFrame a .poll []⟩ }
      ∧ othersKept i s t ∧ Keeps { segs := true, engine := true } s t)
    ∧ (s.part = .safe → exec (.pollSent i) s = .next s)
    ∧ (∀ v, n.commanded = some v → ∃ t, exec (.setSent i) s = .next t
      ∧ t.segs.look i = some { g with lastServed := a, phase := .sending ⟨.set, a, false, requesterFrame a .set v.bytes⟩ }
      ∧ othersKept i s t
      ∧ (∀ k q, s.signs.look k = some q → t.signs.look k = some
          (match v with
            | .percent _ => q
            | .display d =>
              if s.part ≠ .safe ∧ q.seg = i.val ∧ q.addr = a ∧ q.lastSent ≠ some d then
                { q with lastSent := some d, lastSend := some s.timebase, pacing := .pacing }
              else q))
      ∧ Keeps { segs := true, engine := true, signs := true } s t)

/-- From R30, R31, R37, R50 to R54 and R69: a good reply of the configured kind to a POLL or a SET makes the node PRESENT
with miss count 0 and its payload the last reply data; to a SET it also gives the confirmed value. The failure cause and
the commanded value are the node's own still, but that an owning block may command it anew, and the line is quiet. Of the
other nodes and of the other segments nothing changes but commanded values, and of the node's own segment the line and the
mark of a waiting probe (log entry 9). Outside
SAFE each bay that names a polled node takes its slot's value as Table 3-2 states, and the holds on bays that a FAULT
takes to UNKNOWN end BAY_LOST (R54, R153); and each gas channel of the node takes its status, and its value, held at its
gas's top, where the status is OK. No live hold names an UNKNOWN bay, and the bays' hold references agree with the hold
table (R60). -/
def Obligations.GoodRepliesAreTaken : Prop :=
  (∀ (i : Fin 8) (g : Segment) (tx : Transaction) (n : Node) (pl : Payload) (frame : List Byte) (s : State),
    s.resetLow = false → s.segs.look i = some g → g.phase = .awaiting tx → g.nodes.look tx.addr = some n →
    readReply tx.addr tx.func frame = .whole n.kind pl →
    let takes := fun (c : Instr) (confirmed : Option Setting) => ∃ t g' n', exec c s = .next t
      ∧ t.segs.look i = some g' ∧ g'.nodes.look tx.addr = some n'
      ∧ g' = { g with phase := .quiet, probeDue := g.probeDue && (s.probeTarget g).isSome, nodes := g'.nodes }
      ∧ n' = { n with
          state := .present, misses := 0, lastReply := some pl, confirmed := confirmed, commanded := n'.commanded }
      ∧ onlyNode i tx.addr s t ∧ t.part = s.part ∧ Keeps .fieldwork s t
    (tx.func = .poll → takes (.goodPollReply i frame) n.confirmed)
    ∧ (tx.func = .set → takes (.goodSetReply i frame) pl.accepted))
  ∧ ∀ (i : Fin 8) (g : Segment) (tx : Transaction) (n : Node) (pl : Payload) (frame : List Byte) (s : State),
    s.resetLow = false → s.part ≠ .safe → s.tablesRising = true → s.heldBaysKnown = true → s.holdsAgree = true →
    s.segs.look i = some g → g.phase = .awaiting tx → tx.func = .poll → g.nodes.look tx.addr = some n →
    n.state.reachable = true → readReply tx.addr tx.func frame = .whole n.kind pl →
    ∃ t, exec (.goodPollReply i frame) s = .next t
      ∧ (∀ slots, pl = .bay slots →
          let lost := fun (h : Hold) => match s.bays.look h.bay with
            | some r => r.seg == i.val && r.addr == tx.addr && slots[r.slot]? == some .fault
            | none => false
          (∀ b r v, s.bays.look b = some r → r.seg = i.val → r.addr = tx.addr → slots[r.slot]? = some v →
            t.bays.look b = some { tabledReport s.timebase (s.sp 30) v r with
              hold := if v = .fault then none else r.hold })
          ∧ (∀ b r, s.bays.look b = some r → ¬ (r.seg = i.val ∧ r.addr = tx.addr) → t.bays.look b = some r)
          ∧ t.holds = (s.holds.filter fun e => !lost e.2) ∧ ∀ p, t.ends.at p = s.endedInto lost .bayLost p)
      ∧ (∀ v0 s0 v1 s1, pl = .gas v0 s0 v1 s1 → ∀ c ch, s.gas.look c = some ch → ch.seg = i.val → ch.addr = tx.addr →
          t.gas.look c = some
            (let value := if ch.chan = 0 then v0 else v1
             let status := if ch.chan = 0 then s0 else s1
             { ch with
               status := some status
               reading := if status = .ok then
                   some (match ch.gas with
                     | .co => min value 1000
                     | .no2 => min value 500)
                 else ch.reading }))

/-- From R97 to R99, R168 and R180: what the good reply to a SET does at the block that owns what the node carries,
outside SAFE. A drive not WAITING takes its reported state and is UNAVAILABLE where that is TRIPPED and AVAILABLE else; a
change raises DRIVE_FAULT, and the shaft's rating or the zone's jet fault flag follows. A lamp's zone holds the
failed-luminaire count, and a rise, from 0 where none was held, raises FIELD_FAULT. A sign shows the display accepted.
What another node carries is left as it was. -/
def Obligations.SetRepliesReachTheOwners : Prop :=
  ∀ (i : Fin 8) (g : Segment) (tx : Transaction) (n : Node) (pl : Payload) (frame : List Byte) (s : State),
    s.resetLow = false → s.part ≠ .safe → s.tablesRising = true → s.heldBaysKnown = true → s.segs.look i = some g →
    g.phase = .awaiting tx → tx.func = .set → g.nodes.look tx.addr = some n → n.state.reachable = true →
    readReply tx.addr tx.func frame = .whole n.kind pl →
    ∃ t, exec (.goodSetReply i frame) s = .next t
      ∧ (∀ v st w, pl = .drive v st w → ∀ d x, s.drives.look d = some x →
          (¬ (x.seg = i.val ∧ x.addr = tx.addr) → t.drives.look d = some x)
          ∧ (x.seg = i.val → x.addr = tx.addr → x.avail ≠ .waiting →
            let avail : Availability := if st = .tripped then .unavailable else .available
            t.drives.look d = some { x with reported := some st, avail := avail }
            ∧ (x.avail ≠ avail →
              (∀ p, setHas (s.notices.at p).routing .driveFault = true → setHas (t.notices.at p).pending .driveFault = true)
              ∧ (∀ m rated k, x.duty = .shaft m rated → s.shafts.look m = some k →
                  ∃ k', t.shafts.look m = some k' ∧ k'.rating = t.availableRating m)
              ∧ ∀ z y, x.duty = .jet z → s.vent.look z = some y →
                  ∃ y', t.vent.look z = some y' ∧ y'.jetFault = decide (st = .tripped))))
      ∧ (∀ v m, pl = .lamp v m → ∀ z l, s.lights.look z = some l →
          t.lights.look z = some (if (s.lamps.any fun e => e.2.zone == z && e.2.seg == i.val && e.2.addr == tx.addr) = true
            then { l with failed := some m } else l)
          ∧ ((s.lamps.any fun e => e.2.zone == z && e.2.seg == i.val && e.2.addr == tx.addr) = true → l.failed.getD 0 < m →
            ∀ p, setHas (s.notices.at p).routing .fieldFault = true → setHas (t.notices.at p).pending .fieldFault = true))
      ∧ (∀ d, pl = .sign d → ∀ k q, s.signs.look k = some q → t.signs.look k = some
          (if q.seg = i.val ∧ q.addr = tx.addr then { q with shown := some d } else q))

/-- R68, R71 to R73, R76, R77, R80, R82 to R84, R91 and R123: what a good POLL reply of a GAS node does to the zones that
have a channel on the node, outside SAFE. A zone with such a channel that is valid takes one sample: its index from the
largest reading of each gas among its valid channels, S moved toward it by the smoothing weight, the sample added to the
open bin, the loss timer stopped with SENSOR_LOSS cleared, PEAK by the clear test and then the set test, and a D update
with its stage. A zone left without a valid channel has its loss timer running, and every other zone's record stands. The AIR
cause follows the AIR state, the holds of the zones that so close end AIR_CLOSED, and a changed alarm raises AIR_ALARM. -/
def Obligations.ZoneSampleIsTaken : Prop :=
  ∀ (i : Fin 8) (g : Segment) (tx : Transaction) (n : Node) (v0 v1 : Nat) (s0 s1 : GasStatus) (frame : List Byte) (s : State),
    s.resetLow = false → s.part ≠ .safe → s.tablesRising = true → s.heldBaysKnown = true → s.segs.look i = some g →
    g.phase = .awaiting tx → tx.func = .poll → g.nodes.look tx.addr = some n → n.kind = .gas → n.state.reachable = true →
    readReply tx.addr tx.func frame = .whole .gas (.gas v0 s0 v1 s1) →
    ∃ t, exec (.goodPollReply i frame) s = .next t
      ∧ (∀ z a, s.zones.has z = true → s.air.look z = some a →
        let valid := (t.gas.filter fun e => e.2.zone == z && t.channelValid e.2).map Prod.snd
        let onNode := t.gas.any fun e => e.2.zone == z && e.2.seg == i.val && e.2.addr == tx.addr
        let sampled := valid.any fun c => c.seg == i.val && c.addr == tx.addr
        let largest := fun (gas : Gas) =>
          ((valid.filter fun c => c.gas == gas).map fun c => c.reading.getD 0).foldl max 0
        let index := min 2000 (max (largest .co * 1000 / s.sp 0) (largest .no2 * 1000 / s.sp 1))
        let step := fun (d : Nat) => if d = 0 then 0 else max 1 (d * s.sp 2 / 16)
        let smooth := if a.smooth ≤ index then a.smooth + step (index - a.smooth) else a.smooth - step (a.smooth - index)
        let binned := if a.binCount < 65535 then (a.binSum + index, a.binCount + 1) else (a.binSum, a.binCount)
        let peak := decide (s.sp 15 ≤ index) || (a.peak && !decide (smooth < s.sp 16))
        t.air.look z = some
          (if sampled = true then { a with
              index := index, smooth := smooth, demand := min 2000 (smooth + a.credit), binSum := binned.1
              binCount := binned.2, lossStart := none, loss := false, graceDue := false, peak := peak }
           else if onNode = true ∧ t.sensed z = false then { a with lossStart := some (a.lossStart.getD s.timebase) }
           else a)
        ∧ (sampled = true →
          (∀ v, s.vent.look z = some v → ∃ v', t.vent.look z = some v'
            ∧ (v'.computed, v'.dwell) =
                (if s.smoke = none then s.tabledStage (min 2000 (smooth + a.credit)) v else (v.computed, v.dwell))
            ∧ (s.smoke = none → t.figuredAs z v'))
          ∧ (∀ r, s.status.look z = some r → t.status.look z = some { r with closure := { r.closure with
              air := if (peak || a.dose) = (a.peak || a.dose) then r.closure.air else peak || a.dose } })
          ∧ (peak ≠ a.peak ∨ a.loss = true → ∀ p, setHas (s.notices.at p).routing .airAlarm = true →
              setHas (t.notices.at p).pending .airAlarm = true)))
      ∧ t.holds = (s.holds.filter fun e => !(s.zoneOpen e.2.zone && !t.zoneOpen e.2.zone))
      ∧ (∀ p, t.ends.at p = s.endedInto (fun h => s.zoneOpen h.zone && !t.zoneOpen h.zone) .airClosed p)
      ∧ Keeps .fieldwork s t

/-- From R22, R33, R34, R46 and R96: an attempt of a roll call that times out, or that ends in a gap
or a bad frame (CHECK), goes again at the same address while the attempts lie below the threshold its first attempt fixed,
in DISCOVERING, in RECOVERING and in SAFE, at a configured address and at another. In DISCOVERING, below address 62, a valid reply,
or the last attempt (`Resolving` lists them), resolves the address, and the roll call goes on to the next one. A configured address is
PRESENT with miss count 0 where the reply names the configured kind (it keeps its failure cause, as R37 has it at a good
reply: log entry 10), and its drives that were WAITING are AVAILABLE; it is MISMATCH with miss count 0 and cause WRONG_KIND
where the reply names another kind, and LOST with as many misses as attempts and the last attempt's cause where none is
valid. An address the tables do not name is a stray where it answers, and leaves no trace where it does not. In SAFE an
address that answers gets a record with its fixed command, and with failure cause, confirmed value and last reply data
absent (the model's choice: log entry 26), and one that does not leaves every record as it was. Of the other nodes and of
the other segments nothing changes but commanded values. A transaction's end lets a waiting probe lapse that has no address
to go to (log entry 9). -/
def Obligations.RollCallAttemptsResolve : Prop :=
  ∀ (i : Fin 8) (g : Segment) (tx : Transaction) (rc : RollCall) (s : State),
    s.resetLow = false → s.heldBaysKnown = true → s.segs.look i = some g → g.phase = .awaiting tx →
    tx.func = .rollCall → tx.probe = false → g.rollCall = some rc →
    let goesTo := fun (rc' : RollCall) (strays : Nat) (nodes : Table Node) =>
      { g with
        phase := .quiet, probeDue := g.probeDue && (s.probeTarget g).isSome, rollCall := some rc', strays := strays
        nodes := nodes }
    let alone := fun (c : Instr) (g' : Segment) => ∃ t, exec c s = .next t ∧ t.segs.look i = some g' ∧ othersKept i s t
      ∧ Keeps { segs := true, engine := true } s t
    (∀ m frame, g.state = .discovering ∨ g.state = .recovering → rc.threshold = some m → rc.attempts + 1 < m →
      let again := goesTo { rc with attempts := rc.attempts + 1 } g.strays g.nodes
      alone (.replyTimeout i) again ∧ alone (.replyGap i) again
      ∧ (readReply tx.addr .rollCall frame = .bad → alone (.replyBadFrame i frame) again))
    ∧ ∀ c found strays, g.state = .discovering → rc.addr < 62 → Resolving s i g tx rc c found strays →
      let next : RollCall := { rc with addr := rc.addr + 1, attempts := 0, threshold := none }
      (found = none → alone c (goesTo next strays g.nodes))
      ∧ (∀ r, found = some r → s.part = .safe → alone c (goesTo next strays (g.nodes.put tx.addr (safeRecord r.kind))))
      ∧ ∀ r n, found = some r → s.part ≠ .safe → g.nodes.look tx.addr = some n →
        ∃ t g' n', exec c s = .next t ∧ t.segs.look i = some g' ∧ g' = goesTo next strays g'.nodes
          ∧ g'.nodes.look tx.addr = some n' ∧ n' = { n.resolvedTo r with commanded := n'.commanded }
          ∧ onlyNode i tx.addr s t ∧ t.part = s.part ∧ Keeps .fieldwork s t
          ∧ (r.state = .present → n.kind = .drive → n.state ≠ .present → s.drives.rising = true →
              ∀ d x, s.drives.look d = some x → x.seg = i.val → x.addr = tx.addr → x.avail = .waiting →
                t.drives.look d = some { x with avail := .available })
          ∧ (r.state.gone = true → n.state ≠ r.state → ∀ p, setHas (s.notices.at p).routing .fieldFault = true →
              setHas (t.notices.at p).pending .fieldFault = true)

/-- From R19, R33 to R35, R42, R43 and R46. The roll call that has resolved address 62, by a valid reply or by the last
attempt (`Resolving` lists them), takes its segment to RUNNING with the probe pointer at 0 and no node served yet, and the
part from DISCOVERING to RUN exactly where every other segment in use has left discovery; the other segments keep all but
commanded values. In RECOVERING a result is held back in the roll call and no node record changes (the failure cause held
back for a PRESENT node is its own still: log entry 10), until address 62 is resolved: then every node takes the state, miss
count and cause its roll call resolved, and one that so leaves a reachable state for LOST or MISMATCH has its confirmed
value UNKNOWN; a node without a result keeps all but its commanded value. In DISCOVERING the node of address 62 alone takes
its result. In SAFE the records at the end of a recovery are those of the addresses that answered, and no others. The mark
of a waiting probe stays only while an address is left for it, and is dropped at RUNNING (the model's reading: log entry
9). -/
def Obligations.RollCallsEnd : Prop :=
  ∀ (i : Fin 8) (g : Segment) (tx : Transaction) (rc : RollCall) (s : State),
    s.resetLow = false → s.segs.look i = some g → g.phase = .awaiting tx → tx.func = .rollCall → tx.probe = false →
    g.rollCall = some rc → g.state = .discovering ∨ g.state = .recovering → rc.results.rising = true →
    ∀ c found strays, Resolving s i g tx rc c found strays →
      let written := g.written rc tx.addr found
      (62 ≤ rc.addr → ∃ t g', exec c s = .next t ∧ t.segs.look i = some g'
        ∧ g' = { g with
            state := .running, phase := .quiet, rollCall := none, lastServed := 0, probePtr := 0, probeDue := false
            left := true, strays := strays, nodes := g'.nodes }
        ∧ partAfterLeaving i s t ∧ othersShaped i s t ∧ Keeps .fieldwork s t
        ∧ (s.part ≠ .safe → (∀ a, g.nodes.look a = none → g'.nodes.look a = none)
          ∧ ∀ a n, g.nodes.look a = some n →
            (∃ n', g'.nodes.look a = some n' ∧ match written a with
              | some r => n' = { n.resolvedTo r with commanded := n'.commanded }
              | none => n' = { n with commanded := n'.commanded })
            ∧ ∀ r, written a = some r → r.state.gone = true → n.state ≠ r.state →
              ∀ p, setHas (s.notices.at p).routing .fieldFault = true →
                setHas (t.notices.at p).pending .fieldFault = true)
        ∧ (s.part = .safe → s.heldBaysKnown = true → othersKept i s t ∧ Keeps { segs := true, engine := true } s t
          ∧ ∀ a, g'.nodes.look a = match written a with
            | some r => some (safeRecord r.kind)
            | none => if g.state = .recovering then none else g.nodes.look a))
      ∧ (g.state = .recovering → s.heldBaysKnown = true → rc.addr < 62 → ∃ t, exec c s = .next t
        ∧ t.segs.look i = some { g with
            phase := .quiet, probeDue := g.probeDue && (s.probeTarget g).isSome, strays := strays
            rollCall := some ⟨rc.addr + 1, 0, none, rc.holding tx.addr found⟩ }
        ∧ othersKept i s t ∧ Keeps { segs := true, engine := true } s t)

/-- R38, R46 and R96: a valid reply to a recovery probe outside SAFE that names the configured kind makes the node PRESENT
with miss count 0 and its drives AVAILABLE; it keeps the failure cause it had (log entry 10). One that names another kind
makes it MISMATCH with cause WRONG_KIND; it keeps the miss count it had (the model's choice: log entry 39). A probe without a
valid reply records its cause and leaves the state and the miss count as they were. Of the other nodes and of the other
segments nothing changes but commanded values. In SAFE, with no live hold on a bay in UNKNOWN (R60), a valid reply makes or replaces the address's
record, with failure cause, confirmed value and last reply data absent (the model's choice: log entry 26), a probe without
one leaves every record as it was, and nothing else changes but the line, quiet again, and the mark of a waiting probe (log
entry 9). -/
def Obligations.ProbeReplyJudged : Prop :=
  ∀ (i : Fin 8) (g : Segment) (tx : Transaction) (frame : List Byte) (s : State),
    s.resetLow = false → s.segs.look i = some g → g.phase = .awaiting tx → tx.func = .rollCall → tx.probe = true →
    let judged := fun (t : State) (g' : Segment) => t.segs.look i = some g'
      ∧ g' = { g with phase := .quiet, probeDue := g'.probeDue, nodes := g'.nodes }
    (∀ n, s.part ≠ .safe → g.nodes.look tx.addr = some n → n.state.gone = true →
      (∀ k, readReply tx.addr .rollCall frame = .whole k .nothing →
        ∃ t, exec (.validRollCallReply i frame) s = .next t
          ∧ (∃ g' n', judged t g' ∧ g'.nodes.look tx.addr = some n'
            ∧ (k = n.kind → n' = { n with state := .present, misses := 0, commanded := n'.commanded })
            ∧ (k ≠ n.kind → n' = { n with state := .mismatch, cause := some .wrongKind, commanded := n'.commanded }))
          ∧ (k = n.kind → k = .drive → s.drives.rising = true → ∀ d x, s.drives.look d = some x → x.seg = i.val →
              x.addr = tx.addr → t.drives.look d = some { x with avail := .available })
          ∧ onlyNode i tx.addr s t ∧ t.part = s.part ∧ Keeps .fieldwork s t)
      ∧ (let missed := fun (c : Instr) (cause : FailureCause) => ∃ t, exec c s = .next t
          ∧ (∃ g' n', judged t g' ∧ g'.nodes.look tx.addr = some n'
            ∧ n' = { n with cause := some cause, commanded := n'.commanded })
          ∧ onlyNode i tx.addr s t ∧ t.part = s.part ∧ Keeps .fieldwork s t
        missed (.replyTimeout i) .timeout ∧ missed (.replyGap i) .check
        ∧ (readReply tx.addr .rollCall frame = .bad → missed (.replyBadFrame i frame) .check)))
    ∧ (s.part = .safe → s.heldBaysKnown = true →
      let leaves := fun (c : Instr) (nodes : Table Node) => ∃ t, exec c s = .next t
        ∧ (∃ g', judged t g' ∧ g'.nodes = nodes)
        ∧ othersKept i s t ∧ Keeps { segs := true, engine := true } s t
      (∀ k, readReply tx.addr .rollCall frame = .whole k .nothing →
        leaves (.validRollCallReply i frame) (g.nodes.put tx.addr (safeRecord k)))
      ∧ leaves (.replyTimeout i) g.nodes ∧ leaves (.replyGap i) g.nodes
      ∧ (readReply tx.addr .rollCall frame = .bad → leaves (.replyBadFrame i frame) g.nodes))

/-- R28, R37: the four rows that end a POLL or a SET in a miss. The miss count rises by 1, the cause is recorded,
the node becomes LOST at the threshold held, its confirmed value UNKNOWN, and SUSPECT below it, and the line is quiet. Of the other nodes and of the other
segments nothing changes but commanded values. -/
def Obligations.MissesAreCounted : Prop :=
  ∀ (i : Fin 8) (g : Segment) (tx : Transaction) (n : Node) (frame : List Byte) (s : State),
    s.resetLow = false → s.segs.look i = some g → g.phase = .awaiting tx → tx.func = .poll ∨ tx.func = .set →
    g.nodes.look tx.addr = some n → n.state.reachable = true →
    let missed := fun (c : FailureCause) (t : State) => ∃ g' n', t.segs.look i = some g'
      ∧ g' = { g with phase := .quiet, probeDue := g'.probeDue, nodes := g'.nodes } ∧ g'.nodes.look tx.addr = some n'
      ∧ n' = { n with
          misses := n.misses + 1, cause := some c, commanded := n'.commanded,
          state := if (if s.part = .safe then 3 else s.sp 37) ≤ n.misses + 1 then .lost else .suspect,
          confirmed := if (if s.part = .safe then 3 else s.sp 37) ≤ n.misses + 1 then none else n.confirmed }
      ∧ onlyNode i tx.addr s t ∧ t.part = s.part ∧ Keeps .fieldwork s t
    (∃ t, exec (.replyTimeout i) s = .next t ∧ missed .timeout t)
    ∧ (∃ t, exec (.replyGap i) s = .next t ∧ missed .check t)
    ∧ (readReply tx.addr tx.func frame = .bad → ∃ t, exec (.replyBadFrame i frame) s = .next t ∧ missed .check t)
    ∧ (∀ k pl, readReply tx.addr tx.func frame = .whole k pl → k ≠ n.kind →
        ∃ t, exec (.replyWrongKind i frame) s = .next t ∧ missed .wrongKind t)

/-- From R19 and R39 to R41: a held line takes a segment whose driver is disabled from DISCOVERING, RUNNING or RECOVERING to HUNG,
abandoning its transaction and dropping its roll call, with no node record changed; the part enters RUN from DISCOVERING
exactly where every other segment in use has left discovery, and stays in its state otherwise. An idle line found by a test
takes the segment from HUNG to RECOVERING with a wake, and a test that finds the line held changes nothing. 5 s of HUNG make
every node that is not LOST already LOST with its confirmed value UNKNOWN; miss counts and failure causes are kept, the
segment stays HUNG, and a node LOST before and the other segments keep all but commanded values. -/
def Obligations.HangsFreezeThenLoseNodes : Prop :=
  (∀ (i : Fin 8) (g : Segment) (s : State), s.resetLow = false → s.segs.look i = some g →
    (g.driving = false → g.state = .discovering ∨ g.state = .running ∨ g.state = .recovering →
      ∃ t, exec (.hangDetected i) s = .next t
        ∧ t.segs.look i = some { g with
            state := .hung, phase := .quiet, rollCall := none, probeDue := false,
            left := true, hangs := if g.hangs < 65535 then g.hangs + 1 else g.hangs }
        ∧ othersKept i s t ∧ partAfterLeaving i s t
        ∧ (s.part ≠ .safe → ∀ p, setHas (s.notices.at p).routing .fieldFault = true →
            setHas (t.notices.at p).pending .fieldFault = true)
        ∧ Keeps { segs := true, engine := true, notices := true, part := true } s t)
    ∧ (g.driving = true → exec (.hangDetected i) s = .next s)
    ∧ (g.state = .hung → ∃ t, exec (.hungIdleTest i true) s = .next t
        ∧ t.segs.look i = some { g with state := .recovering, phase := .wakeActive, rollCall := none }
        ∧ othersKept i s t ∧ Keeps { segs := true, engine := true } s t)
    ∧ exec (.hungIdleTest i false) s = .next s)
  ∧ ∀ (i : Fin 8) (g : Segment) (s : State), s.resetLow = false → s.segs.look i = some g → g.state = .hung →
    g.nodes.rising = true →
    ∃ t, exec (.hungNodeLoss i) s = .next t
      ∧ ∃ g', t.segs.look i = some g' ∧ g' = { g with nodes := g'.nodes }
        ∧ othersShaped i s t ∧ t.part = s.part ∧ Keeps .fieldwork s t
        ∧ (∀ a, g.nodes.look a = none → g'.nodes.look a = none)
        ∧ ∀ a n, g.nodes.look a = some n → ∃ n', g'.nodes.look a = some n' ∧ n' = if n.state = .lost then
            { n with commanded := n'.commanded }
          else { n with state := .lost, confirmed := none, commanded := n'.commanded }

/-- From R26, R33, R37, R38, R41, R43, R54, R58, R70, R82, R96, R98, R99, R153 and R168: outside SAFE, what the blocks that
own records do when nodes become LOST or MISMATCH (`NodesLost` spells it): for the one node whose miss reaches the
threshold, whichever way its POLL or SET was missed; for every node not yet LOST at the 5 s of a hang; for the LOST node
whose probe gets a reply of another kind; for the node that a roll call of discovery resolves so, by a reply of another kind
or by its last attempt; and at address 62 of a recovery for every node resolved so from another state, while others may
become PRESENT. A node whose result is the state it already has is not among them. No live hold names an UNKNOWN bay, the
bays' hold references agree with the hold table (R60), and no zone has two JET drives (R3): this last holds at reset, and
every step keeps it. -/
def Obligations.LostNodesReachTheOwners : Prop :=
  (∀ (i : Fin 8) (g : Segment) (s : State),
    s.resetLow = false → s.part ≠ .safe → s.tablesRising = true → s.heldBaysKnown = true → s.holdsAgree = true →
    oneJet s.drives → s.segs.look i = some g →
    (∀ tx n frame, g.phase = .awaiting tx → tx.func = .poll ∨ tx.func = .set → g.nodes.look tx.addr = some n →
      n.state.reachable = true → s.sp 37 ≤ n.misses + 1 →
      let lost := fun (t : State) => onlyNode i tx.addr s t ∧ NodesLost s t i fun k a => k == n.kind && a == tx.addr
      (∃ t, exec (.replyTimeout i) s = .next t ∧ lost t) ∧ (∃ t, exec (.replyGap i) s = .next t ∧ lost t)
      ∧ (readReply tx.addr tx.func frame = .bad → ∃ t, exec (.replyBadFrame i frame) s = .next t ∧ lost t)
      ∧ (∀ k pl, readReply tx.addr tx.func frame = .whole k pl → k ≠ n.kind →
          ∃ t, exec (.replyWrongKind i frame) s = .next t ∧ lost t))
    ∧ (g.state = .hung → ∃ t, exec (.hungNodeLoss i) s = .next t
      ∧ NodesLost s t i fun k a => match g.nodes.look a with
        | some n => n.kind == k && n.state != .lost
        | none => false)
    ∧ (∀ tx n frame k, g.phase = .awaiting tx → tx.func = .rollCall → tx.probe = true → g.nodes.look tx.addr = some n →
      n.state = .lost → readReply tx.addr .rollCall frame = .whole k .nothing → k ≠ n.kind →
      ∃ t, exec (.validRollCallReply i frame) s = .next t
        ∧ onlyNode i tx.addr s t ∧ NodesLost s t i fun k a => k == n.kind && a == tx.addr)
    ∧ ∀ tx rc c found strays, g.phase = .awaiting tx → tx.func = .rollCall → tx.probe = false → g.rollCall = some rc →
      g.state = .discovering ∨ g.state = .recovering ∧ 62 ≤ rc.addr ∧ rc.results.rising = true →
      Resolving s i g tx rc c found strays →
      let becomes := fun (which : NodeState → Bool) (k : NodeKind) (a : Nat) =>
        match g.nodes.look a, g.written rc tx.addr found a with
        | some n, some r => n.kind == k && n.state != r.state && which r.state
        | _, _ => false
      ∃ t, exec c s = .next t
        ∧ NodesLost s t i (becomes NodeState.gone) (becomes (· == .present)))
  ∧ oneJet State.reset.drives ∧ ∀ s t, oneJet s.drives → step s = .next t → oneJet t.drives

/-! ### The station lines -/

/-- From R185 to R188: what happens on a station line without a request being taken. A start byte begins a frame in IDLE
alone; a length of 0 or above 256, and a gap, end a frame in RECEIVING as an error; a quiet line ends DISCARDING; the last
byte of a reply frees the transmitter. A whole frame with a wrong check is an error, one whose check is right while a
reply is being sent an overrun, and one in DISCARDING is not received; no request is taken, so the last request time
stays. A taken frame whose code names no request is refused UNKNOWN_COMMAND, one whose arguments do not fit its request
BAD_LENGTH, and nothing else changes. -/
def Obligations.StationLineMoments : Prop :=
  (∀ (p : Port) (n : BitVec 16) (s : State), s.resetLow = false →
     exec (.stationStartByte p) s = .next
       (if (s.ports.at p).rx = .idle then s.withPort p (fun r => { r with rx := .receiving }) else s)
     ∧ exec (.stationBadLength p n) s = .next
       (if (s.ports.at p).rx = .receiving ∧ (n.toNat = 0 ∨ 256 < n.toNat) then
         s.withPort p (fun r => { r with rx := .discarding, errors := counted r.errors }) else s)
     ∧ exec (.stationGapTimeout p) s = .next
       (if (s.ports.at p).rx = .receiving then
         s.withPort p (fun r => { r with rx := .idle, errors := counted r.errors }) else s)
     ∧ exec (.discardQuietEnd p) s = .next
       (if (s.ports.at p).rx = .discarding then s.withPort p (fun r => { r with rx := .idle }) else s)
     ∧ exec (.replySent p) s = .next (s.withPort p (fun r => { r with tx := none })))
  ∧ (∀ (p : Port) (frame : List Byte) (f : StationFrame) (s : State),
      s.resetLow = false → readStationFrame frame = some f →
      ((s.ports.at p).rx = .discarding → exec (.stationFrameComplete p frame) s = .next s)
      ∧ ((s.ports.at p).rx ≠ .discarding → f.valid = false → exec (.stationFrameComplete p frame) s = .next
          (s.withPort p (fun r => { r with rx := .idle, errors := counted r.errors })))
      ∧ ((s.ports.at p).rx ≠ .discarding → f.valid = true → (s.ports.at p).tx ≠ none →
          exec (.stationFrameComplete p frame) s = .next
            (s.withPort p (fun r => { r with rx := .idle, overruns := counted r.overruns }))))
    ∧ ∀ (p : Port) (code : Byte) (args : List Byte) (s : State),
      s.resetLow = false → 1 + args.length ≤ 256 → (s.ports.at p).rx ≠ .discarding → (s.ports.at p).tx = none →
      (decodeRequest p code args = .unknownCommand →
        exec (.stationFrameComplete p (stationRequest code args)) s = .next (s.answering p code .unknownCommand []))
      ∧ (decodeRequest p code args = .badLength →
        exec (.stationFrameComplete p (stationRequest code args)) s = .next (s.answering p code .badLength []))

/-- R184, R186, R187, Tables 10-2 and 10-5: reading the code and argument bytes of a well-formed request gives the request
back, and a whole valid frame that carries them is that request. That a request command is the moment of its frame's last
byte, accepted in IDLE as in RECEIVING, is read by inference (log entry 12). -/
def Obligations.RequestCodingRoundTrip : Prop :=
  ∀ (i : Instr) (p : Port) (code : Byte) (args : List Byte),
    i.wellFormed = true → encodeRequest i = some (p, code, args) →
    decodeRequest p code args = .request i
    ∧ ∀ s : State, ∃ t, exec i s = .next t ∧ exec (.stationFrameComplete p (stationRequest code args)) s = .next t

/-- R187, checks 3 to 6, for every request: STARTING in LOADING and SAFE in SAFE, but for READ STATUS; NOT_PERMITTED
without the right of Table 10-5; STARTING in DISCOVERING with it, but for READ STATUS. A request in DISCARDING is
not received, and one that meets a reply being sent is an overrun. -/
def Obligations.PortUnitRefusals : Prop :=
  ∀ (i : Instr) (p : Port) (code : Byte) (args : List Byte) (s : State),
    encodeRequest i = some (p, code, args) → s.resetLow = false →
    ((s.ports.at p).rx = .discarding → exec i s = .next s)
    ∧ ((s.ports.at p).rx ≠ .discarding → (s.ports.at p).tx ≠ none →
        exec i s = .next (s.withPort p (fun r => { r with rx := .idle, overruns := counted r.overruns })))
    ∧ ((s.ports.at p).rx ≠ .discarding → (s.ports.at p).tx = none →
        (s.part = .loading → code ≠ 0x01 → exec i s = .next (s.answering p code .starting []))
        ∧ (s.part = .safe → code ≠ 0x01 → exec i s = .next (s.answering p code .safe []))
        ∧ (s.part = .discovering ∨ s.part = .run → (s.ports.at p).rights.has (rightOfCode code) = false →
            exec i s = .next (s.answering p code .notPermitted []))
        ∧ (s.part = .discovering → (s.ports.at p).rights.has (rightOfCode code) = true → code ≠ 0x01 →
            exec i s = .next (s.answering p code .starting [])))

/-- R1, R12, R29 and each block's checks: a taken request either is answered OK or, refused with another status, changes
nothing but its port and, where the port holds OVERRIDE, that the lapse condition ends (R127, R193); and no request but RESTART changes anything of the field controller but its nodes' commanded
values. -/
def Obligations.RefusedRequestChangesNothing : Prop :=
  (∀ (i : Instr) (p : Port) (code : Byte) (args : List Byte) (s t : State),
     encodeRequest i = some (p, code, args) → s.resetLow = false → (s.ports.at p).rx ≠ .discarding →
     (s.ports.at p).tx = none → exec i s = .next t →
     (∃ data, (t.ports.at p).tx = some ⟨stationReply code .ok data, s.rate⟩)
     ∨ ∃ why, why ≠ .ok ∧ t = s.answering p code why [])
  ∧ ∀ (i : Instr) (p : Port) (code : Byte) (args : List Byte) (s t : State),
      encodeRequest i = some (p, code, args) → code ≠ 0x65 → exec i s = .next t → t.fieldShape = s.fieldShape

/-! ### The requests that read -/

/-- R8, R47, R48, R135 and R194: READ STATUS in every part state (in LOADING without the READ right), READ OPTIONS, READ
SEGMENT and READ NODE answer with the fields their rules list, in that order, and change nothing else. The widths are
inferred from R184, and the order of the five node counts from Table 2-2 (log entry 13): node counts, miss counts, section numbers and codes in one byte, stray, hang and
restart counts in two. READ STATUS sends the timebase value in SAFE too, which the rule leaves open (log entry 29), and
READ NODE the detector slots with no count byte (log entry 30). -/
def Obligations.ReadsOfPartOptionsAndField : Prop :=
  ∀ (p : Port) (s : State),
    let flag := fun (b : Bool) => if b then [1#8] else [0#8]
    (s.resetLow = false → (s.ports.at p).rx ≠ .discarding → (s.ports.at p).tx = none →
      s.part = .loading ∨ (s.ports.at p).rights.read = true →
      let u := s.answering p 0x01 .ok []
      let entry := fun (n : Option Nat) (width : Nat → List Byte) => match n with
        | none => [0#8]
        | some v => 1#8 :: width v
      let port := fun (q : Port) => match (u.ports.at q).role with
        | none => [0#8]
        | some role => 1#8 :: u8 role.code ++ [(u.ports.at q).rights.byte] ++ flag (u.ports.at q).locked
            ++ u16 (u.ports.at q).errors ++ u16 (u.ports.at q).overruns ++ u32 (u.timebase - (u.ports.at q).lastRequest)
      exec (.readStatus p) s = .next (s.answering p 0x01 .ok
        (u8 u.part.code ++ u16 u.restarts ++ entry (if u.part = .loading then none else some u.timebase) u32
          ++ (match u.rejection with
            | none => [0#8]
            | some why => 1#8 :: u8 why.cause.code ++ entry why.sect u8 ++ entry why.entry u16)
          ++ (if u.part = .discovering ∨ u.part = .run then
              1#8 :: u8 u.supply.code ++ flag u.smoke.isSome ++ entry u.smoke u8 ++ u8 u.lapse.code else [0#8])
          ++ port .s0 ++ port .s1 ++ port .s2 ++ port .s3)))
    ∧ (∀ o, s.ready p .read → s.options = some o → exec (.readOptions p) s = .next (s.answering p 0x02 .ok
        ([o.roles.s0, o.roles.s1, o.roles.s2, o.roles.s3].map (fun r => BitVec.ofNat 8 r.code)
          ++ [BitVec.ofNat 8 o.rate.code, BitVec.ofNat 8 o.silence.code, BitVec.ofNat 8 o.reply.code, o.segments])))
    ∧ (∀ (i : Byte) (g : Segment), s.ready p .read → i.toNat < 8 → s.segs.look i.toNat = some g →
        exec (.readSegment p i) s = .next (s.answering p 0x0A .ok
          (u8 g.state.code ++ u16 g.strays ++ u16 g.hangs
            ++ u8 (countWhere g.nodes fun n => n.state == .expected) ++ u8 (countWhere g.nodes fun n => n.state == .present)
            ++ u8 (countWhere g.nodes fun n => n.state == .suspect) ++ u8 (countWhere g.nodes fun n => n.state == .lost)
            ++ u8 (countWhere g.nodes fun n => n.state == .mismatch))))
    ∧ (∀ i a : Byte, s.ready p .read → i.toNat < 8 → 1 ≤ a.toNat → a.toNat ≤ 62 →
        (s.node i.toNat a.toNat = none → exec (.readNode p i a) s = .next (s.answering p 0x09 .ok [0#8]))
        ∧ (∀ n, s.node i.toNat a.toNat = some n →
          let value := fun (v : Setting) => match v with
            | .percent x => u8 x
            | .display d => u16 d.code
          exec (.readNode p i a) s = .next (s.answering p 0x09 .ok
            (u8 n.kind.code ++ u8 n.state.code ++ u8 n.misses
              ++ (match n.cause with
                | none => [0#8]
                | some c => 1#8 :: u8 c.code)
              ++ (match n.lastReply with
                | none => [0#8]
                | some .nothing => [1#8]
                | some (.bay slots) => 1#8 :: slots.flatMap (fun v => u8 v.code)
                | some (.gas v0 s0 v1 s1) => 1#8 :: u16 v0 ++ u8 s0.code ++ u16 v1 ++ u8 s1.code
                | some (.drive v st w) => 1#8 :: u8 v ++ u8 st.code ++ u8 w
                | some (.lamp v m) => 1#8 :: u8 v ++ u8 m
                | some (.sign d) => 1#8 :: u16 d.code)
              ++ (match n.commanded with
                | none => []
                | some v => value v ++ match n.confirmed with
                  | some c => value c
                  | none => if n.kind = .sign then [255#8, 255#8] else [255#8])))))
    ∧ (∀ i a : Byte, s.ready p .read → 8 ≤ i.toNat →
        exec (.readSegment p i) s = .next (s.answering p 0x0A .outOfRange [])
        ∧ exec (.readNode p i a) s = .next (s.answering p 0x09 .outOfRange []))
    ∧ (∀ i a : Byte, s.ready p .read → a.toNat = 0 ∨ 62 < a.toNat →
        exec (.readNode p i a) s = .next (s.answering p 0x09 .outOfRange []))

/-- R64, R85, R86, R115, R116, R135, R159, R160, R170, R181, R195: the reads of a zone, its bays, the holds, a shaft, a
sign and a dose ring answer with the fields their rules list, in that order, and change nothing else; an index that names
nothing is refused OUT_OF_RANGE. The widths are inferred from R184 (log entry 13), and the fifteen dose bins carry no
count byte, which the rule leaves open (log entry 30). -/
def Obligations.ReadsOfZonesHoldsAndSigns : Prop :=
  ∀ (p : Port) (x : Byte) (s : State), s.ready p .read →
    let z := x.toNat
    let answers := fun (c : Instr) (code : Byte) (data : List Byte) => exec c s = .next (s.answering p code .ok data)
    let refuses := fun (c : Instr) (code : Byte) => exec c s = .next (s.answering p code .outOfRange [])
    let flag := fun (b : Bool) => if b then [1#8] else [0#8]
    let opt := fun (n : Option Nat) (width : Nat → List Byte) => match n with
      | none => [0#8]
      | some v => 1#8 :: width v
    let zoneList := fun (zs : List Nat) => u8 zs.length ++ zs.flatMap u8
    let stage := fun (n : Nat) => if s.smoke = none then u8 n else [255#8]
    let percent := fun (v : Option Setting) => match v with
      | some (.percent n) => u8 n
      | _ => [255#8]
    let commanded := fun (i a : Nat) => (s.node i a).bind Node.commanded
    let confirmed := fun (i a : Nat) => (s.node i a).bind Node.confirmed
    (∀ e r a v l, s.zones.look z = some e → s.status.look z = some r → s.air.look z = some a → s.vent.look z = some v →
      s.lights.look z = some l → answers (.readZone p x) 0x03
        (u8 z
          ++ (u8 e.level ++ [r.closure.byte] ++ flag (!r.closure.supervisor && !r.closure.air && !r.closure.smoke)
            ++ opt r.forcedStage u8 ++ opt r.forcedLight u8 ++ flag r.holdOut)
          ++ (u16 a.index ++ u16 a.smooth ++ u16 a.credit ++ u16 a.demand ++ u16 (a.a15.getD 65535) ++ flag a.peak
            ++ flag a.dose ++ flag a.loss ++ opt (a.lossStart.map fun d => s.timebase - d) u32
            ++ u8 (s.gas.filter fun c => c.2.zone = z).length
            ++ (s.gas.filter fun c => c.2.zone = z).flatMap fun c =>
                u8 c.1 ++ u8 c.2.gas.code ++ flag (s.channelValid c.2) ++ opt c.2.reading u16
                  ++ opt (c.2.status.map GasStatus.code) u8)
          ++ (stage v.computed ++ u32 (s.timebase - v.dwell) ++ u8 v.alarmMin ++ opt r.forcedStage u8 ++ flag r.holdOut
            ++ flag (r.holdOut && decide (v.alarmMin ≤ 2)) ++ stage v.wanted ++ u8 v.want ++ u8 v.floor
            ++ u8 (e.shaft.getD 255) ++ u16 (v.alloc.getD 65535) ++ stage v.effective
            ++ (match s.drives.find? fun d => decide (d.2.duty = .jet z) with
              | none => [0#8]
              | some d => 1#8 :: u8 d.1 ++ u8 d.2.avail.code ++ percent (commanded d.2.seg d.2.addr))
            ++ flag v.jetFault)
          ++ (u8 ((s.escorts.look z).getD 0) ++ u8 (s.holds.filter fun h => h.2.zone == z).length
            ++ u8 (if a.loss = true ∨ s.sp 9 ≤ a.demand then 3 else if s.sp 8 ≤ a.demand then 2
                else if s.sp 7 ≤ a.demand then 1 else 0))
          ++ (u8 l.state.code ++ opt (l.deadline.map fun d => d - s.timebase) u16 ++ u8 l.escorts ++ u8 l.level
            ++ u8 l.line.code ++ flag l.capped
            ++ (match s.lamps.find? fun c => c.2.zone == z with
              | none => [0#8]
              | some c => 1#8 :: u8 c.1 ++ u8 (s.nodeState c.2.seg c.2.addr).code ++ percent (confirmed c.2.seg c.2.addr))
            ++ opt l.failed u8)))
    ∧ (∀ start : Byte,
        let bays := s.bays.filter fun e => e.2.zone = z
        (s.zones.has z = true → start.toNat < bays.length ∨ (start = 0#8 ∧ bays = []) → answers (.readBays p x start) 0x05
          (u8 bays.length ++ u8 ((bays.drop start.toNat).take 16).length
            ++ ((bays.drop start.toNat).take 16).flatMap fun e =>
              u16 e.1 ++ u8 e.2.kind.code ++ flag e.2.outOfUse ++ u8 e.2.occ.code ++ opt (e.2.raw.map RawValue.code) u8
                ++ opt e.2.hold u8 ++ opt (e.2.deadline.map fun d => d - s.timebase) u8 ++ u16 e.2.glitches))
        ∧ (s.zones.has z = false ∨ (bays.length ≤ start.toNat ∧ ¬ (start = 0#8 ∧ bays = [])) →
            refuses (.readBays p x start) 0x05))
    ∧ (z < 64 → answers (.readHolds p x) 0x06
        (u8 s.holds.length ++ u8 ((s.holds.filter fun e => decide (z ≤ e.1)).take 8).length
          ++ ((s.holds.filter fun e => decide (z ≤ e.1)).take 8).flatMap fun e =>
            u8 e.1 ++ u16 e.2.bay
              ++ u8 (match s.bays.look e.2.bay with
                | some b => b.kind.code
                | none => 0)
              ++ u8 e.2.zone ++ u8 e.2.entry ++ u8 e.2.cls.code ++ u8 (portNumber e.2.port) ++ timeField e.2.created
              ++ u16 (e.2.expiry - s.timebase) ++ zoneList e.2.route))
    ∧ (∀ k, s.shafts.look z = some k → answers (.readShaft p x) 0x08
        (u8 k.mode.code ++ zoneList k.ring ++ zoneList (k.ring.filter fun y => k.taken.contains y)
          ++ u16 k.rating ++ u16 k.capacity ++ u16 k.flow ++ u8 k.speed
          ++ (let shaftDrives := s.drives.filter fun d => match d.2.duty with
                | .shaft n _ => n == z
                | .jet _ => false
              u8 shaftDrives.length ++ shaftDrives.flatMap fun d =>
                u8 d.1 ++ u8 (match d.2.duty with
                    | .shaft _ rated => rated
                    | .jet _ => 0)
                  ++ u8 d.2.avail.code ++ opt (d.2.reported.map DriveState.code) u8
                  ++ percent (commanded d.2.seg d.2.addr) ++ percent (confirmed d.2.seg d.2.addr))
          ++ u8 k.ring.length ++ k.ring.flatMap fun y => match s.vent.look y with
            | none => []
            | some v => u8 y ++ stage v.wanted ++ u8 v.want ++ u8 v.floor ++ u16 (v.alloc.getD 65535) ++ stage v.effective))
    ∧ (∀ g, s.signs.look z = some g → answers (.readSign p x) 0x0B
        (u8 g.seg ++ u8 g.addr ++ u8 (s.nodeState g.seg g.addr).code
          ++ u16 (match commanded g.seg g.addr with
            | some (.display d) => d.code
            | _ => 65535)
          ++ u8 g.filter.code ++ zoneList g.zones ++ u16 g.target.code ++ u8 g.pacing.code
          ++ opt (g.lastSent.map Display.code) u16 ++ opt (g.lastSend.map fun d => s.timebase - d) u32
          ++ u16 ((g.shown.map Display.code).getD 65535)))
    ∧ (∀ a, s.air.look z = some a → a.ring.length = 15 → a.writePos < 15 → answers (.readDose p x) 0x0C
        ((List.range 15).flatMap (fun k => u16 ((a.ring.getD ((a.writePos + k) % 15) none).getD 65535))
          ++ u16 a.binCount ++ u16 (if a.binCount = 0 then 65535 else a.binSum / a.binCount)
          ++ u16 (a.a15.getD 65535) ++ flag a.dose ++ u16 (s.sp 13) ++ u16 (s.sp 14)))
    ∧ (s.zones.has z = false → refuses (.readZone p x) 0x03)
    ∧ (64 ≤ z → refuses (.readHolds p x) 0x06)
    ∧ (s.shafts.look z = none → refuses (.readShaft p x) 0x08)
    ∧ (s.signs.look z = none → refuses (.readSign p x) 0x0B)
    ∧ (s.air.look z = none → refuses (.readDose p x) 0x0C)

/-- From R65, R158 and R198: READ FREE COUNTS answers with every configured zone's counts and total in zone order,
stores those totals as the port's baseline and removes BAY_CHANGE from its pending set; no other port's notices and
nothing of the bay table change. READ HOLD ENDS answers with the requesting port's list, oldest first, and its overflow
flag, and empties that list alone. The one-byte counts and the place of each field are inferred from R184 (log entry
13), and that the number of entries is the list's own count byte is the model's choice (log entry 34). -/
def Obligations.ReadsThatTake : Prop :=
  ∀ (p : Port) (s : State), s.ready p .read →
    (s.zones.rising = true → s.zoneList.Pairwise (· < ·))
    ∧ (∃ t, exec (.readFreeCounts p) s = .next t
      ∧ (t.notices.at p).baseline = some (s.zoneList.map fun z => (z, (s.freeOf z).total))
      ∧ (∀ c, setHas (t.notices.at p).pending c = (setHas (s.notices.at p).pending c && c != .bayChange))
      ∧ (t.notices.at p).taken = (s.notices.at p).taken ∧ (t.notices.at p).mask = (s.notices.at p).mask
      ∧ (t.notices.at p).routing = (s.notices.at p).routing ∧ (t.notices.at p).sound = true
      ∧ (∀ q, q ≠ p → t.notices.at q = s.notices.at q)
      ∧ Keeps { notices := true } (s.answering p 0x04 .ok (u8 s.zoneList.length ++ s.zoneList.flatMap fun z =>
          u8 z ++ u8 (s.freeOf z).standard ++ u8 (s.freeOf z).wide ++ u8 (s.freeOf z).charger
            ++ u8 (s.freeOf z).accessible ++ u8 (s.freeOf z).total)) t)
    ∧ ∃ t, exec (.readHoldEnds p) s = .next t ∧ t.ends.at p = ⟨[], false⟩
      ∧ (∀ q, q ≠ p → t.ends.at q = s.ends.at q)
      ∧ Keeps { ends := true } (s.answering p 0x07 .ok (flagField (s.ends.at p).overflow
          ++ u8 (s.ends.at p).entries.length ++ (s.ends.at p).entries.flatMap fun e =>
            u8 e.slot ++ u16 e.bay ++ u8 e.zone ++ u8 e.cause.code ++ u16 e.age)) t

/-! ### Traffic, holds and the table edits -/

/-- R74, R76, R80, R91, R140, R173: ENTRY and EXIT credit each zone of the point's ramp list with the class's credit, held
at 1000, make its D update with its stage, and give it a movement, which lights it as Table 9-2 and R177 give it (when the
cap counts as applied is log entry 37's choice). No zone off the list is credited, and no hold ends. A
point without a ramp list and a code that names no class are refused OUT_OF_RANGE. -/
def Obligations.EntryAndExitCreditTheRamp : Prop :=
  ∀ (p : Port) (e c : Byte) (s : State), s.ready p .lane →
    (∀ (cls : VehicleClass) (zs : List Nat), VehicleClass.ofCode c.toNat = some cls → zs.Nodup →
      let served := fun (code : Byte) (t : State) =>
        (∀ z a, s.air.look z = some a → t.air.look z = some
          (if z ∈ zs then { a with
              credit := min 1000 (a.credit + s.creditOf cls)
              demand := min 2000 (a.smooth + min 1000 (a.credit + s.creditOf cls))
              peak := a.peak && !decide (a.smooth < s.peakClear) }
           else a))
        ∧ (∀ z a v, z ∈ zs → s.smoke = none → s.air.look z = some a → s.vent.look z = some v →
            ∃ v', t.vent.look z = some v' ∧ t.figuredAs z v' ∧ (v'.computed, v'.dwell) =
              s.tabledStage (min 2000 (a.smooth + min 1000 (a.credit + s.creditOf cls))) v)
        ∧ (∀ z, z ∈ zs → ∀ l, s.lights.look z = some l → ∃ l', t.lights.look z = some l'
            ∧ l'.state = .active ∧ l'.deadline = some (s.timebase + s.activeHold) ∧ t.litAsTabled z l')
        ∧ t.holds = s.holds
        ∧ Keeps { air := true, segs := true, vent := true, shafts := true, lights := true, notices := true,
                  signs := true, status := true } (s.answering p code .ok []) t
      (s.entryRamps.look e.toNat = some zs → ∃ t, exec (.entry p e c) s = .next t ∧ served 0x20 t)
      ∧ (s.exitRamps.look e.toNat = some zs → ∃ t, exec (.exit p e c) s = .next t ∧ served 0x21 t))
    ∧ (s.entryRamps.look e.toNat = none ∨ 3 < c.toNat →
        exec (.entry p e c) s = .next (s.answering p 0x20 .outOfRange []))
    ∧ (s.exitRamps.look e.toNat = none ∨ 3 < c.toNat →
        exec (.exit p e c) s = .next (s.answering p 0x21 .outOfRange []))

/-- R60, R74, R141, R147, R148: where a slot is empty and the selection gives a zone and a bay, REQUEST BAY makes the
hold: the first empty slot above the pointer, wrapping, and the pointer, its record, the bay's reference and the escort
counts of its route; each zone of the route has the class's credit with its D update, and a movement. An entry point that
is not configured and a code that names no class or no wanted kind are refused OUT_OF_RANGE; then smoke mode CLOSED; then
64 live holds HOLDS_FULL; then a selection that finds no zone NO_BAY. -/
def Obligations.RequestBayMakesAHold : Prop :=
  ∀ (p : Port) (e c k : Byte) (s : State), s.ready p .lane →
    let refused := fun (why : Status) => exec (.requestBay p e c k) s = .next (s.answering p 0x22 why [])
    (s.entryRamps.has e.toNat = false ∨ 3 < c.toNat ∨ 4 < k.toNat → refused .outOfRange)
    ∧ (s.entryRamps.has e.toNat = true → c.toNat ≤ 3 → k.toNat ≤ 4 → s.smoke ≠ none → refused .closed)
    ∧ ∀ (cls : VehicleClass) (wanted : Option BayKind), s.entryRamps.has e.toNat = true →
      VehicleClass.ofCode c.toNat = some cls → wantedKindOfCode k.toNat = some wanted → s.smoke = none →
      ((∀ n, n < 64 → s.holds.has n = true) → refused .holdsFull)
      ∧ ((∃ n, n < 64 ∧ s.holds.has n = false) → s.select e.toNat cls (tiers wanted cls) = none → refused .noBay)
      ∧ ∀ (slot zone bay : Nat) (r : Bay) (route : List Nat), s.holdPtr < 64 →
        nextInTurn s.holdPtr slot (fun n => n < 64 ∧ s.holds.has n = false) →
        s.select e.toNat cls (tiers wanted cls) = some (zone, bay) → s.bays.look bay = some r →
        s.routeOf e.toNat zone = some route → route.Nodup →
        ∃ t, exec (.requestBay p e c k) s = .next t ∧ t.holdPtr = slot
          ∧ t.holds = s.holds.put slot ⟨bay, zone, e.toNat, cls, p, s.timebase, s.timebase + s.holdLifetime, route⟩
          ∧ t.bays.look bay = some { r with hold := some slot }
          ∧ (∀ b, b ≠ bay → t.bays.look b = s.bays.look b)
          ∧ (∀ z n, s.escorts.look z = some n → t.escorts.look z = some (if z ∈ route then n + 1 else n))
          ∧ (∀ z a, s.air.look z = some a → t.air.look z = some
              (if z ∈ route then { a with
                  credit := min 1000 (a.credit + s.creditOf cls)
                  demand := min 2000 (a.smooth + min 1000 (a.credit + s.creditOf cls))
                  peak := a.peak && !decide (a.smooth < s.peakClear) }
               else a))
          ∧ (∀ z, z ∈ route → ∀ l, s.lights.look z = some l → ∃ l', t.lights.look z = some l'
              ∧ l'.state = .active ∧ l'.deadline = some (s.timebase + s.activeHold))
          ∧ Keeps .guiding (s.answering p 0x22 .ok
              (u8 slot ++ u16 bay ++ u8 r.kind.code ++ u8 zone ++ zoneListField route ++ u16 s.holdLifetime
                ++ timeField (s.timebase + s.holdLifetime))) t

/-- R142 to R146. The passes of a request with their tiers (Table 7-2); a candidate is a configured open zone with a route
from the entry point and a free bay of the tier (R143); its air band is Table 7-3's (R144). A candidate's score is ten
for each zone of its route, twenty-five for each step of its air band, and fifty for a DIESEL request where its D is at or
above U2. The winner is a candidate that no other beats: no other has a lower score, nor an equal score with more free
bays of the tier, nor both equal and a lower number. In the winning zone the bay is the lowest-numbered countable bay of
the first kind of the tier of which the zone has a free count; a candidate has one (R62). A pass without a candidate gives
way to the next, and the request finds nothing where none has one. -/
def Obligations.SelectionPicksTheWinnersBay : Prop :=
  (∀ c : VehicleClass,
    (∀ k, tiers (some k) c = [[k]])
    ∧ tiers none c = (if c = .electric then [[.charger], [.standard, .wide]] else [[.standard, .wide]]))
  ∧ ∀ (s : State) (entry : Nat) (c : VehicleClass) (tier : List BayKind),
    (∀ z, z ∈ s.candidates entry tier ↔ s.zones.has z = true ∧ s.zoneOpen z = true ∧ (∃ r, s.routeOf entry z = some r)
      ∧ ∃ k ∈ tier, 0 < (s.freeOf z).ofKind k)
    ∧ (∀ z, s.tierFree z tier = (tier.map fun k => (s.freeOf z).ofKind k).sum)
    ∧ (∀ z a, s.air.look z = some a →
      s.airBand z = if a.loss = true ∨ s.sp 9 ≤ a.demand then 3 else if s.sp 8 ≤ a.demand then 2
        else if s.sp 7 ≤ a.demand then 1 else 0)
    ∧ (∀ z route a, s.routeOf entry z = some route → s.air.look z = some a →
      s.score entry c z = 10 * route.length + 25 * s.airBand z + if c = .diesel ∧ s.sp 8 ≤ a.demand then 50 else 0)
    ∧ (∀ zs : List Nat, (zs ≠ [] → s.winner entry c tier zs ≠ none)
      ∧ ∀ w, s.winner entry c tier zs = some w → w ∈ zs ∧ ∀ z, z ∈ zs →
        s.score entry c w < s.score entry c z
        ∨ (s.score entry c w = s.score entry c z
            ∧ (s.tierFree z tier < s.tierFree w tier ∨ (s.tierFree z tier = s.tierFree w tier ∧ w ≤ z))))
    ∧ (∀ z b, s.bays.rising = true → s.tierBay z tier = some b →
      let countable := fun (k : BayKind) (b' : Nat) => ∃ r, s.bays.look b' = some r ∧ r.zone = z ∧ r.kind = k
        ∧ r.occ = .free ∧ r.hold = none ∧ r.outOfUse = false
      ∃ before k after, tier = before ++ k :: after ∧ (∀ j ∈ before, (s.freeOf z).ofKind j = 0)
        ∧ 0 < (s.freeOf z).ofKind k ∧ countable k b ∧ ∀ b', countable k b' → b ≤ b')
    ∧ (∀ z, s.countsSound = true → z ∈ s.candidates entry tier → s.tierBay z tier ≠ none)
    ∧ s.select entry c [] = none
    ∧ (∀ more, s.candidates entry tier = [] → s.select entry c (tier :: more) = s.select entry c more)
    ∧ ∀ more w b, s.winner entry c tier (s.candidates entry tier) = some w → s.tierBay w tier = some b →
      s.select entry c (tier :: more) = some (w, b)

/-- R155. RELEASE HOLD refuses, in order, a slot above 63, a bay that is not configured, and a slot that holds no live
hold of the bay given, NO_HOLD. Otherwise the hold ends RELEASED, whichever port made it: its slot empties, its bay's
reference clears, the entry goes to the making port's list, and the reply carries the slot, the bay and the age. -/
def Obligations.ReleaseHoldEndsTheHold : Prop :=
  ∀ (p : Port) (n : Byte) (b : BitVec 16) (s : State), s.ready p .lane →
    (64 ≤ n.toNat → exec (.releaseHold p n b) s = .next (s.answering p 0x23 .outOfRange []))
    ∧ (n.toNat < 64 → s.bays.has b.toNat = false →
        exec (.releaseHold p n b) s = .next (s.answering p 0x23 .outOfRange []))
    ∧ (n.toNat < 64 → s.bays.has b.toNat = true → (∀ h, s.holds.look n.toNat = some h → h.bay ≠ b.toNat) →
        exec (.releaseHold p n b) s = .next (s.answering p 0x23 .noHold []))
    ∧ (∀ h, n.toNat < 64 → s.bays.has b.toNat = true → s.holds.look n.toNat = some h → h.bay = b.toNat →
      ∃ t, exec (.releaseHold p n b) s = .next t
      ∧ t.holds = s.holds.remove n.toNat
      ∧ t.ends.at h.port = (s.ends.at h.port).append ⟨n.toNat, b.toNat, h.zone, .released, s.timebase - h.created⟩
      ∧ (∀ q, q ≠ h.port → t.ends.at q = s.ends.at q)
      ∧ (∀ r, s.bays.look b.toNat = some r → t.bays.look b.toNat = some { r with hold := none })
      ∧ (∀ b', b' ≠ b.toNat → t.bays.look b' = s.bays.look b')
      ∧ Keeps { bays := true, free := true, segs := true, holds := true, escorts := true, ends := true, signs := true,
                lights := true, notices := true }
          (s.answering p 0x23 .ok (u8 n.toNat ++ u16 b.toNat ++ u16 (s.timebase - h.created))) t)

/-- R10, R11: SET SETPOINTS with every number in range and at least one pair holds the values that its two passes make:
of each setpoint the last value written to it, clamped to its own range, or the one held, and then the whole set made
legal. It answers with all 38, which carry no count byte (the model's choice: log entry 30). A number above 37 is refused
OUT_OF_RANGE, an empty list BAD_LIST. At once (Table 1-4) a change of a light level lights every zone afresh; of the
fail-safe stage, gives every zone with SENSOR_LOSS its alarm minimum and, outside smoke mode, reviews its shaft's
taken-for-service set and ring, also where its wanted stage stays as it was (log entry 33); outside smoke mode, of a flow, a jet speed or the
drive minimum, gives every zone its figures and every shaft its speed, and commands every AVAILABLE drive with a node of
its own: a SHAFT drive its shaft's speed, a JET drive the jet speed of its zone's effective stage; of the restricted percent, under RESTRICTED supply,
every shaft its capacity; of the smoke jet speed, while smoke mode stands, commands it of the fire level's JET drives with a
node of their own, the tables being in canonical form. When
the supply cap counts as applied to a lit zone is log entry 37's choice. -/
def Obligations.SetSetpointsHoldsTheLegalSet : Prop :=
  ∀ (p : Port) (pairs : List (Byte × BitVec 16)) (s : State), s.ready p .config →
    ((∃ x ∈ pairs, 37 < x.1.toNat) → exec (.setSetpoints p pairs) s = .next (s.answering p 0x30 .outOfRange []))
    ∧ (pairs = [] → exec (.setSetpoints p pairs) s = .next (s.answering p 0x30 .badList []))
    ∧ (pairs ≠ [] → (∀ x ∈ pairs, x.1.toNat ≤ 37) → s.setpoints.length = 38 → ∃ t, exec (.setSetpoints p pairs) s = .next t
      ∧ (let first := fun (n : Nat) => match (pairs.filter fun x => x.1.toNat == n).getLast? with
          | some x => clampOwn n x.2.toNat
          | none => s.sp n
        t.setpoints = (List.range 38).map (legalised first))
      ∧ (let changed := fun (ns : List Nat) => ∃ n ∈ ns, t.sp n ≠ s.sp n
        (changed [32, 33, 34] → ∀ z l, s.zones.has z = true → s.lights.look z = some l →
          ∃ l', t.lights.look z = some l' ∧ l'.state = l.state ∧ l'.deadline = l.deadline ∧ t.litAsTabled z l')
        ∧ (changed [18] → ∀ z a v, s.zones.has z = true → s.air.look z = some a → a.loss = true → s.vent.look z = some v →
          ∃ v', t.vent.look z = some v' ∧ v'.computed = v.computed
            ∧ v'.alarmMin = (if a.peak then 4 else if a.dose then 3 else t.sp 18) ∧ (s.smoke = none → t.figuredAs z v'))
        ∧ (changed [18] → s.smoke = none → s.tablesRising = true → s.plantFormed = true →
          (∀ y v, s.vent.look y = some v → v.floor ≤ v.want) →
          ∀ n k z a, s.shafts.look n = some k → z ∈ k.ring → s.air.look z = some a → a.loss = true →
            let wanted := t.ventFigure VentZone.wanted
            let retired := k.ring.filter fun y => k.taken.contains y && decide (wanted y < 2)
            ∃ k', t.shafts.look n = some k' ∧ k'.mode = k.mode
              ∧ k'.ring = (if k.mode = .rotating then k.ring.filter (fun y => !retired.contains y) ++ retired else k.ring)
              ∧ k'.taken = k.ring.filter fun y => decide (2 ≤ wanted y)
                  && decide (t.tabledShare k'.capacity k.ring y = t.ventFigure VentZone.want y))
        ∧ (changed [19, 20, 21, 22, 23, 24, 25, 26, 27] → s.smoke = none →
          (∀ z v, s.zones.has z = true → s.vent.look z = some v →
            ∃ v', t.vent.look z = some v' ∧ v'.computed = v.computed ∧ t.figuredAs z v')
          ∧ (∀ n k, s.shafts.look n = some k → ∃ k', t.shafts.look n = some k' ∧ k'.speed = t.tabledSpeed k'.flow k'.rating)
          ∧ (s.tablesRising = true → ∀ d x, s.drives.look d = some x → x.avail = .available → s.nodeAlone d x →
            (∀ n rated k', x.duty = .shaft n rated → t.shafts.look n = some k' → commandedTo s t x.seg x.addr k'.speed)
            ∧ ∀ z e v', x.duty = .jet z → s.zones.look z = some e → t.vent.look z = some v' →
              e.shaft = none ∨ (∃ n k, s.shafts.look n = some k ∧ z ∈ k.ring) →
              commandedTo s t x.seg x.addr (t.jetSpeed v'.effective)))
        ∧ (changed [28] → s.supply = .restricted → ∀ n k, s.shafts.look n = some k → ∃ k', t.shafts.look n = some k'
            ∧ k'.rating = s.availableRating n ∧ k'.capacity = k'.rating * t.sp 28 / 100)
        ∧ (changed [29] → s.tablesRising = true → ∀ level, s.smoke = some level → ∀ d x z e, s.drives.look d = some x →
            x.duty = .jet z → s.zones.look z = some e → e.level = level → s.nodeAlone d x →
            commandedTo s t x.seg x.addr (t.sp 29)))
      ∧ Keeps { segs := true, vent := true, shafts := true, lights := true, setpoints := true }
          (s.answering p 0x30 .ok (t.setpoints.flatMap u16)) t)

/-- From R11, R13, R94, R100, R107, R111, R112: SET ZONE replaces the zone's record, the base flow clamped to 0–40. A new
shaft takes the zone out of its old ring and taken-for-service set and puts it at the end of its new ring; in ROTATING
mode outside smoke mode the review of each of the two shafts then moves its retired zones behind. A change of shaft or of
base flow gives the zone its wanted stage, want and floor outside smoke mode, where every shaft is then left as a
recomputation leaves it, if all were (`plantShared`); no other zone's figures change. In smoke mode figures stand, a moved zone takes
allocation 0 or NONE (log entry 20), and a change of level commands the zone's JET drive the smoke jet speed or 0 % by its
new level. A zone that is not configured, a level not below the level count and a shaft that is
neither NONE nor configured are refused OUT_OF_RANGE, then a new shaft with 16 zones BAD_LIST. The base flow takes
the two bytes R184 gives a setpoint (log entry 31), and the fields of the reply are the model's (log entry 32). -/
def Obligations.SetZoneReplacesTheRecord : Prop :=
  ∀ (p : Port) (z l k : Byte) (f : BitVec 16) (s : State), s.ready p .config →
    let new : Option Nat := if k.toNat = 255 then none else some k.toNat
    (s.zones.has z.toNat = false ∨ s.levelCount ≤ l.toNat ∨ (∃ n, new = some n ∧ s.shafts.has n = false) →
      exec (.setZone p z l k f) s = .next (s.answering p 0x31 .outOfRange []))
    ∧ ∀ old, s.zones.look z.toNat = some old → l.toNat < s.levelCount → (∀ n, new = some n → s.shafts.has n = true) →
      (∀ n, new = some n → old.shaft ≠ some n → 16 ≤ (s.shaftZones n).length →
        exec (.setZone p z l k f) s = .next (s.answering p 0x31 .badList []))
      ∧ ((∀ n, new = some n → old.shaft = some n ∨ (s.shaftZones n).length < 16) →
        ∃ t, exec (.setZone p z l k f) s = .next t
          ∧ t.zones.look z.toNat = some ⟨l.toNat, new, min 40 f.toNat⟩
          ∧ (∀ z', z' ≠ z.toNat → t.zones.look z' = s.zones.look z')
          ∧ (old.shaft ≠ new →
              let turned := fun (k : Shaft) (ring : List Nat) =>
                if k.mode = .rotating ∧ s.smoke = none then
                  let retired := ring.filter fun y => k.taken.contains y && decide (t.ventFigure VentZone.wanted y < 2)
                  ring.filter (fun y => !retired.contains y) ++ retired
                else ring
              (∀ n k, old.shaft = some n → s.shafts.look n = some k → ∃ k', t.shafts.look n = some k'
                ∧ k'.ring = turned k (k.ring.filter (· ≠ z.toNat)) ∧ z.toNat ∉ k'.taken ∧ k'.mode = k.mode)
              ∧ (∀ n k, new = some n → s.shafts.look n = some k → ∃ k', t.shafts.look n = some k'
                ∧ k'.ring = turned k (k.ring ++ [z.toNat]) ∧ k'.mode = k.mode))
          ∧ (∀ v r, s.vent.look z.toNat = some v → s.status.look z.toNat = some r →
              (s.smoke = none → old.shaft ≠ new ∨ old.baseFlow ≠ min 40 f.toNat → ∃ v', t.vent.look z.toNat = some v'
                ∧ v'.computed = v.computed ∧ v'.dwell = v.dwell ∧ v'.alarmMin = v.alarmMin ∧ v'.floor = min 40 f.toNat
                ∧ v'.wanted = max (r.forcedStage.getD v.computed) v.alarmMin
                ∧ v'.want = (if r.holdOut = true ∧ v.alarmMin ≤ 2 then v'.floor
                    else max v'.floor (s.stageFlow v'.wanted)))
              ∧ (s.smoke = none → old.shaft = new → old.baseFlow = min 40 f.toNat → t.vent = s.vent ∧ t.shafts = s.shafts)
              ∧ (s.smoke ≠ none → t.vent.look z.toNat =
                  some { v with alloc := if old.shaft = new then v.alloc else new.map fun _ => 0 }))
          ∧ (∀ y v, y ≠ z.toNat → s.vent.look y = some v →
              ∃ v', t.vent.look y = some v' ∧ v' = { v with alloc := v'.alloc, effective := v'.effective })
          ∧ (s.tablesRising = true → s.plantFormed = true → s.plantShared = true → t.plantShared = true)
          ∧ (∀ fire, s.smoke = some fire → s.drives.rising = true →
              (old.level ≠ l.toNat → ∀ d x, s.drives.look d = some x → x.duty = .jet z.toNat → s.nodeAlone d x →
                commandedTo s t x.seg x.addr (if l.toNat = fire then s.sp 29 else 0))
              ∧ ∀ i a, (∀ d x, s.drives.look d = some x → x.duty = .jet z.toNat → ¬ (x.seg = i ∧ x.addr = a)) ∨ old.level = l.toNat →
                t.node i a = s.node i a)
          ∧ t.routes = s.routes ∧ t.entryRamps = s.entryRamps ∧ t.exitRamps = s.exitRamps
          ∧ Keeps { segs := true, vent := true, shafts := true, tables := true }
              (s.answering p 0x31 .ok (u8 z.toNat ++ u8 l.toNat ++ word8 new ++ u16 (min 40 f.toNat))) t)

/-- R14, R59: SET BAY stores the kind and the flag; a live hold ends OUT_OF_USE where the flag is newly set. The bay's
other fields, and every other bay, are as they were. A bay that is not configured and a code that names no kind or no flag
are refused OUT_OF_RANGE. The fields of the reply are the model's (log entry 32). -/
def Obligations.SetBayStoresKindAndFlag : Prop :=
  ∀ (p : Port) (b : BitVec 16) (k f : Byte) (s : State), s.ready p .config →
    (s.bays.has b.toNat = false ∨ 3 < k.toNat ∨ 1 < f.toNat →
      exec (.setBay p b k f) s = .next (s.answering p 0x32 .outOfRange []))
    ∧ ∀ (kind : BayKind) (flag : Bool) (r : Bay), s.bays.look b.toNat = some r → BayKind.ofCode k.toNat = some kind →
      flagOfCode f.toNat = some flag → (∀ n, r.hold = some n → ∃ h, s.holds.look n = some h ∧ h.bay = b.toNat) →
      ∃ t, exec (.setBay p b k f) s = .next t
        ∧ t.bays.look b.toNat = some { r with
            kind := kind, outOfUse := flag, hold := if flag && !r.outOfUse then none else r.hold }
        ∧ (∀ b', b' ≠ b.toNat → t.bays.look b' = s.bays.look b')
        ∧ t.holds = (match r.hold with
            | some n => if flag && !r.outOfUse then s.holds.remove n else s.holds
            | none => s.holds)
        ∧ (∀ n h, r.hold = some n → s.holds.look n = some h → flag = true → r.outOfUse = false →
            t.ends.at h.port = (s.ends.at h.port).append ⟨n, b.toNat, h.zone, .outOfUse, s.timebase - h.created⟩
            ∧ ∀ q, q ≠ h.port → t.ends.at q = s.ends.at q)
        ∧ (r.hold = none ∨ flag = false ∨ r.outOfUse = true → t.ends = s.ends)
        ∧ Keeps { bays := true, free := true, segs := true, holds := true, escorts := true, ends := true, signs := true,
                  lights := true, notices := true }
            (s.answering p 0x32 .ok (u16 b.toNat ++ u8 kind.code ++ flagField flag)) t

/-- From R15 and R16: SET ROUTE refuses, in order, an entry point or target that is not configured, more than 12 zones, a
zone that is not configured, and a list that repeats a zone or does not end at its target; it stores the list as the
pair's route, or removes the pair's route with an empty one. SET RAMP refuses a kind, a point or a zone out of its range
and then an empty, overlong or repeating list; it stores the point's ramp list, whether or not the point was configured.
Neither changes anything else. The fields of the replies are the model's (log entry 32). -/
def Obligations.SetRouteAndSetRamp : Prop :=
  ∀ (p : Port) (e z k : Byte) (zs : List Byte) (s : State), s.ready p .config →
    let known := ∀ x ∈ zs, s.zones.has x.toNat = true
    let unknown := ∃ x ∈ zs, s.zones.has x.toNat = false
    let pair := s.entryRamps.has e.toNat = true ∧ s.zones.has z.toNat = true
    (s.entryRamps.has e.toNat = false ∨ s.zones.has z.toNat = false →
      exec (.setRoute p e z zs) s = .next (s.answering p 0x33 .outOfRange []))
    ∧ (pair → 12 < zs.length → exec (.setRoute p e z zs) s = .next (s.answering p 0x33 .badList []))
    ∧ (pair → zs.length ≤ 12 → unknown → exec (.setRoute p e z zs) s = .next (s.answering p 0x33 .outOfRange []))
    ∧ (pair → zs.length ≤ 12 → known → zs ≠ [] → (¬ (zs.map BitVec.toNat).Nodup ∨ zs.getLast? ≠ some z) →
      exec (.setRoute p e z zs) s = .next (s.answering p 0x33 .badList []))
    ∧ (pair → zs.length ≤ 12 → known → (zs.map BitVec.toNat).Nodup → (zs ≠ [] → zs.getLast? = some z) →
      exec (.setRoute p e z zs) s = .next
        { s.answering p 0x33 .ok (u8 e.toNat ++ u8 z.toNat ++ u8 zs.length ++ zs) with
          routes := if zs = [] then s.routes.remove (64 * e.toNat + z.toNat)
                    else s.routes.put (64 * e.toNat + z.toNat) (zs.map BitVec.toNat) })
    ∧ (4 ≤ e.toNat ∨ 2 ≤ k.toNat ∨ unknown → exec (.setRamp p k e zs) s = .next (s.answering p 0x34 .outOfRange []))
    ∧ (e.toNat < 4 → k.toNat < 2 → known → (zs = [] ∨ 8 < zs.length ∨ ¬ (zs.map BitVec.toNat).Nodup) →
      exec (.setRamp p k e zs) s = .next (s.answering p 0x34 .badList []))
    ∧ (e.toNat < 4 → zs ≠ [] → zs.length ≤ 8 → known → (zs.map BitVec.toNat).Nodup →
      exec (.setRamp p 0#8 e zs) s = .next
        { s.answering p 0x34 .ok (u8 0 ++ u8 e.toNat ++ u8 zs.length ++ zs) with
          entryRamps := s.entryRamps.put e.toNat (zs.map BitVec.toNat) }
      ∧ exec (.setRamp p 1#8 e zs) s = .next
        { s.answering p 0x34 .ok (u8 1 ++ u8 e.toNat ++ u8 zs.length ++ zs) with
          exitRamps := s.exitRamps.put e.toNat (zs.map BitVec.toNat) })

/-- R164 to R166, R169: SET SIGN stores the filter and the list and recomputes the target by the first case of R164
that applies; an OPEN sign's node is commanded the target. Its checks, in order: a sign that is not configured and a code
that names no filter are refused OUT_OF_RANGE, an empty list or one above 8 zones BAD_LIST, an unconfigured zone
OUT_OF_RANGE, a repeated zone BAD_LIST. -/
def Obligations.SetSignRecomputesTheTarget : Prop :=
  ∀ (p : Port) (k f : Byte) (zs : List Byte) (s : State), s.ready p .config →
    let refused := fun (why : Status) => exec (.setSign p k f zs) s = .next (s.answering p 0x35 why [])
    (s.signs.has k.toNat = false ∨ 3 < f.toNat → refused .outOfRange)
    ∧ ∀ (filter : SignFilter) (g : Sign), s.signs.look k.toNat = some g → SignFilter.ofCode f.toNat = some filter →
      (zs = [] ∨ 8 < zs.length → refused .badList)
      ∧ (zs ≠ [] → zs.length ≤ 8 → (∃ x ∈ zs, s.zones.has x.toNat = false) → refused .outOfRange)
      ∧ (zs ≠ [] → zs.length ≤ 8 → (∀ x ∈ zs, s.zones.has x.toNat = true) →
        (¬ (zs.map BitVec.toNat).Nodup → refused .badList)
        ∧ ∀ n, (zs.map BitVec.toNat).Nodup → s.node g.seg g.addr = some n →
          let zones := zs.map BitVec.toNat
          let target := s.tabledTarget { g with filter := filter, zones := zones }
          ∃ t, exec (.setSign p k f zs) s = .next t
            ∧ t.signs.look k.toNat = some { g with filter := filter, zones := zones, target := target }
            ∧ (∀ j, j ≠ k.toNat → t.signs.look j = s.signs.look j)
            ∧ t.node g.seg g.addr =
                some { n with commanded := if g.pacing = .opened then some (.display target) else n.commanded }
            ∧ Keeps { segs := true, signs := true }
                (s.answering p 0x35 .ok (u8 filter.code ++ u8 zs.length ++ zs ++ u16 target.code)) t)

/-- R107 to R110: SET RING and SET LAST change a shaft's ring alone among the tables; in FIXED mode, and in smoke
mode, the ring is exactly the list given, or the old one with the zone at its end. SET ROTATION stores the mode and
leaves ring and set alone. SET RING refuses an unconfigured shaft and then an unconfigured zone OUT_OF_RANGE, and then a
list that is no permutation of the shaft's zones BAD_LIST; SET LAST refuses a zone of no shaft, and SET ROTATION an
unconfigured shaft or a code that names no mode, OUT_OF_RANGE. -/
def Obligations.RingEdits : Prop :=
  ∀ (p : Port) (n : Byte) (s : State), s.ready p .config →
    (∀ zs : List Byte,
      (s.shafts.has n.toNat = false ∨ (∃ x ∈ zs, s.zones.has x.toNat = false) →
        exec (.setRing p n zs) s = .next (s.answering p 0x36 .outOfRange []))
      ∧ (s.shafts.has n.toNat = true → (∀ x ∈ zs, s.zones.has x.toNat = true) →
        ¬ ((zs.map BitVec.toNat).Perm (s.shaftZones n.toNat) ∧ (zs.map BitVec.toNat).Nodup) →
        exec (.setRing p n zs) s = .next (s.answering p 0x36 .badList [])))
    ∧ (∀ z : Byte, s.shaftOf z.toNat = none → exec (.setLast p z) s = .next (s.answering p 0x37 .outOfRange []))
    ∧ (∀ c : Byte, s.shafts.has n.toNat = false ∨ 1 < c.toNat →
        exec (.setRotation p n c) s = .next (s.answering p 0x38 .outOfRange []))
    ∧ ∀ k : Shaft, s.shafts.look n.toNat = some k →
      (∀ zs : List Byte, (∀ x ∈ zs, s.zones.has x.toNat = true) →
        (zs.map BitVec.toNat).Perm (s.shaftZones n.toNat) → (zs.map BitVec.toNat).Nodup →
        ∃ t k', exec (.setRing p n zs) s = .next t ∧ t.shafts.look n.toNat = some k'
          ∧ k'.ring.Perm (zs.map BitVec.toNat)
          ∧ (k.mode = .fixed ∨ s.smoke ≠ none → k'.ring = zs.map BitVec.toNat) ∧ k'.mode = k.mode
          ∧ (zs.map BitVec.toNat = k.ring → k' = k)
          ∧ (∀ m, m ≠ n.toNat → t.shafts.look m = s.shafts.look m)
          ∧ Keeps { segs := true, vent := true, shafts := true } (s.answering p 0x36 .ok (zoneListField k'.ring)) t)
      ∧ (∀ z : Byte, s.shaftOf z.toNat = some n.toNat → z.toNat ∈ k.ring → k.ring.Nodup →
        ∃ t k', exec (.setLast p z) s = .next t ∧ t.shafts.look n.toNat = some k'
          ∧ k'.ring.Perm k.ring
          ∧ (k.mode = .fixed ∨ s.smoke ≠ none → k'.ring = k.ring.filter (· ≠ z.toNat) ++ [z.toNat]) ∧ k'.mode = k.mode
          ∧ (k.ring.getLast? = some z.toNat → k' = k)
          ∧ (∀ m, m ≠ n.toNat → t.shafts.look m = s.shafts.look m)
          ∧ Keeps { segs := true, vent := true, shafts := true } (s.answering p 0x37 .ok (zoneListField k'.ring)) t)
      ∧ (∀ (c : Byte) (mode : RotationMode), RotationMode.ofCode c.toNat = some mode →
        ∃ t, exec (.setRotation p n c) s = .next t ∧ t.shafts.look n.toNat = some { k with mode := mode }
          ∧ (∀ m, m ≠ n.toNat → t.shafts.look m = s.shafts.look m)
          ∧ Keeps { shafts := true } (s.answering p 0x38 .ok (u8 c.toNat ++ zoneListField k.ring)) t)

/-! ### Zone status, supply and smoke mode -/

/-- R92 to R94, R124, R126: OVERRIDE STAGE and HOLD OUT outside smoke mode store their value, a stage clamped to 4,
and where it changed the zone's wanted stage, want and floor follow. No other zone's override record changes. A zone that
is not configured, and of HOLD OUT a code that names neither set nor clear, is refused OUT_OF_RANGE, while smoke mode stands
too (the model's choice: log entry 36). -/
def Obligations.PlantOverridesReachVentilation : Prop :=
  ∀ (p : Port) (z x : Byte) (s : State), s.ready p .override →
    (s.zones.has z.toNat = false → exec (.overrideStage p z x) s = .next (s.answering p 0x40 .outOfRange [])
      ∧ exec (.holdOut p z x) s = .next (s.answering p 0x42 .outOfRange []))
    ∧ (1 < x.toNat → exec (.holdOut p z x) s = .next (s.answering p 0x42 .outOfRange []))
    ∧ ∀ (e : ZoneEntry) (v : VentZone) (r : ZoneStatus) (a : AirZone),
    s.smoke = none → s.zones.look z.toNat = some e → s.vent.look z.toNat = some v →
    s.status.look z.toNat = some r → s.air.look z.toNat = some a →
    let alarm := if a.peak then 4 else if a.dose then 3 else if a.loss then s.sp 18 else 0
    let follows := fun (forced : Option Nat) (held : Bool) (t : State) => ∃ v', t.vent.look z.toNat = some v'
      ∧ v'.alarmMin = alarm ∧ v'.wanted = max (forced.getD v.computed) alarm ∧ v'.floor = e.baseFlow
      ∧ v'.want = (if held && decide (alarm ≤ 2) then e.baseFlow
          else max e.baseFlow (s.stageFlow (max (forced.getD v.computed) alarm)))
      ∧ v'.computed = v.computed ∧ v'.dwell = v.dwell
    let others := fun (t : State) => (∀ z', z' ≠ z.toNat → t.status.look z' = s.status.look z')
    (let forced := if x.toNat = 255 then none else some (min 4 x.toNat)
      ∃ t, exec (.overrideStage p z x) s = .next t
        ∧ t.status.look z.toNat = some { r with forcedStage := forced }
        ∧ (forced ≠ r.forcedStage → follows forced r.holdOut t)
        ∧ others t
        ∧ Keeps { status := true, segs := true, vent := true, shafts := true }
            (s.answering p 0x40 .ok (optional forced u8)) t)
    ∧ (∀ flag, flagOfCode x.toNat = some flag → ∃ t, exec (.holdOut p z x) s = .next t
        ∧ t.status.look z.toNat = some { r with holdOut := flag }
        ∧ (flag ≠ r.holdOut → follows r.forcedStage flag t)
        ∧ others t
        ∧ Keeps { status := true, segs := true, vent := true, shafts := true }
            (s.answering p 0x42 .ok (flagField flag)) t)

/-- R125, R176 to R178: OVERRIDE LIGHT outside smoke mode stores its level, clamped to 100, or clears it, and where that
changed it the zone is lit afresh as Table 9-2 gives it: a forced zone at the larger of the forced light and the floor
light, a cleared one by the lines below (when the cap counts as applied is log entry 37's choice). A zone that is not
configured is refused OUT_OF_RANGE, while smoke mode stands too (the model's choice: log entry 36). -/
def Obligations.OverrideLightReachesLighting : Prop :=
  ∀ (p : Port) (z x : Byte) (s : State), s.ready p .override →
    (s.zones.has z.toNat = false → exec (.overrideLight p z x) s = .next (s.answering p 0x41 .outOfRange []))
    ∧ ∀ (l : LightZone) (r : ZoneStatus),
    s.smoke = none → s.zones.has z.toNat = true → s.status.look z.toNat = some r → s.lights.look z.toNat = some l →
    let forced := if x.toNat = 255 then none else some (min 100 x.toNat)
    ∃ t, exec (.overrideLight p z x) s = .next t
      ∧ t.status.look z.toNat = some { r with forcedLight := forced }
      ∧ (∀ z', z' ≠ z.toNat → t.status.look z' = s.status.look z' ∧ t.lights.look z' = s.lights.look z')
      ∧ (∃ l', t.lights.look z.toNat = some l' ∧ l' = { l with level := l'.level, line := l'.line, capped := l'.capped }
          ∧ (forced = r.forcedLight → l' = l)
          ∧ (forced ≠ r.forcedLight → t.litAsTabled z.toNat l'
              ∧ ∀ n, forced = some n → l'.line = .forced ∧ l'.level = max n (s.sp 32) ∧ l'.capped = false))
      ∧ Keeps { status := true, segs := true, lights := true } (s.answering p 0x41 .ok (optional forced u8)) t

/-- R119 to R122, R154: CLOSE ZONE adds SUPERVISOR to the zone's closure set, so that every live hold in the zone, where
it was open, ends SUPERVISOR_CLOSED in ascending slot order onto its making port's list, and OPEN ZONE removes it; both
leave the other causes and the other zones' sets alone, the signs that list the zone have their targets found afresh, and a
request that finds the set as it is to be changes nothing. A zone that is not configured is refused OUT_OF_RANGE. -/
def Obligations.CloseAndOpenZone : Prop :=
  ∀ (p : Port) (z : Byte) (s : State), s.ready p .override →
    (s.zones.has z.toNat = false → exec (.closeZone p z) s = .next (s.answering p 0x43 .outOfRange [])
      ∧ exec (.openZone p z) s = .next (s.answering p 0x44 .outOfRange []))
    ∧ ∀ r : ZoneStatus, s.zones.has z.toNat = true → s.status.look z.toNat = some r → s.tablesRising = true →
      let changes : Touch := { status := true, segs := true, bays := true, free := true, holds := true, escorts := true,
                               ends := true, signs := true, lights := true, notices := true }
      (r.closure.supervisor = false → ∃ t, exec (.closeZone p z) s = .next t
        ∧ t.status.look z.toNat = some { r with closure := { r.closure with supervisor := true } }
        ∧ (∀ z', z' ≠ z.toNat → t.status.look z' = s.status.look z')
        ∧ t.holds = (if r.closure.isOpen then s.holds.filter (fun e => e.2.zone != z.toNat) else s.holds)
        ∧ (∀ q, t.ends.at q = s.endedInto (fun h => r.closure.isOpen && h.zone == z.toNat) .supervisorClosed q)
        ∧ (∀ k g, s.signs.look k = some g → z.toNat ∈ g.zones → t.signs.look k = some { g with target := t.tabledTarget g })
        ∧ (∀ q, setHas (s.notices.at q).routing .zoneState = true → setHas (t.notices.at q).pending .zoneState = true)
        ∧ Keeps changes (s.answering p 0x43 .ok [{ r.closure with supervisor := true : Closure }.byte]) t)
      ∧ (r.closure.supervisor = true → ∃ t, exec (.openZone p z) s = .next t
        ∧ t.status.look z.toNat = some { r with closure := { r.closure with supervisor := false } }
        ∧ (∀ z', z' ≠ z.toNat → t.status.look z' = s.status.look z')
        ∧ t.holds = s.holds ∧ t.bays = s.bays ∧ t.free = s.free
        ∧ (∀ k g, s.signs.look k = some g → z.toNat ∈ g.zones → t.signs.look k = some { g with target := t.tabledTarget g })
        ∧ (∀ q, setHas (s.notices.at q).routing .zoneState = true → setHas (t.notices.at q).pending .zoneState = true)
        ∧ Keeps changes (s.answering p 0x44 .ok [{ r.closure with supervisor := false : Closure }.byte]) t)
      ∧ (r.closure.supervisor = true → exec (.closeZone p z) s = .next (s.answering p 0x43 .ok [r.closure.byte]))
      ∧ (r.closure.supervisor = false → exec (.openZone p z) s = .next (s.answering p 0x44 .ok [r.closure.byte]))

/-- R99, R129, R177: SUPPLY stores the supply state; on a change every shaft's capacity is its available rating, or the
restricted percent of it, and every zone is lit afresh, with the cap under RESTRICTED supply (when it counts as applied is
log entry 37's choice). Writing the state already
held changes nothing, and a code that names no state is refused OUT_OF_RANGE. -/
def Obligations.SupplyChangesCapacities : Prop :=
  ∀ (p : Port) (c : Byte) (s : State), s.ready p .override →
    (1 < c.toNat → exec (.supply p c) s = .next (s.answering p 0x45 .outOfRange []))
    ∧ ∀ v : Supply, Supply.ofCode c.toNat = some v →
      (s.supply = v → exec (.supply p c) s = .next (s.answering p 0x45 .ok (u8 v.code)))
      ∧ (s.supply ≠ v → ∃ t, exec (.supply p c) s = .next t ∧ t.supply = v
        ∧ (∀ n k, s.shafts.look n = some k → ∃ k', t.shafts.look n = some k'
            ∧ k'.rating = s.availableRating n
            ∧ k'.capacity = (match v with
                | .normal => k'.rating
                | .restricted => k'.rating * s.sp 28 / 100))
        ∧ (∀ z l, s.zones.has z = true → s.lights.look z = some l → ∃ l', t.lights.look z = some l'
            ∧ t.litAsTabled z l' ∧ l' = { l with level := l'.level, line := l'.line, capped := l'.capped })
        ∧ Keeps { supply := true, segs := true, vent := true, shafts := true, lights := true }
            (s.answering p 0x45 .ok (u8 v.code)) t)

/-- R94, R112, R130, R131, R176: SMOKE with no smoke mode standing enters it. Every zone closes for SMOKE with its
override record cleared, every live hold ends SMOKE onto its making port's list, every shaft stands at 100 % with nothing
allocated and its drives commanded so, every zone's JET drive is commanded the smoke jet speed or 0 % by its level, every
zone is lit at 100 and every sign's target is CLOSED. A zone whose hold-out flag that clears has its want found again at the
wanted stage as it stood (log entry 28); the others keep theirs. Each live hold lies in an open zone (R119). -/
def Obligations.SmokeEntersSmokeMode : Prop :=
  ∀ (p : Port) (l : Byte) (s : State),
    s.ready p .fire → l.toNat < s.levelCount → s.smoke = none → s.tablesRising = true →
    (∀ n h, s.holds.look n = some h → s.zones.has h.zone = true ∧ s.status.has h.zone = true ∧ s.zoneOpen h.zone = true) →
    ∃ t, exec (.smoke p l) s = .next t ∧ t.smoke = some l.toNat ∧ t.holds = []
      ∧ (∀ q, t.ends.at q = s.endedInto (fun _ => true) .smoke q)
      ∧ (∀ z r, s.zones.has z = true → s.status.look z = some r →
          t.status.look z = some ⟨{ r.closure with smoke := true }, none, none, false⟩)
      ∧ (∀ z e r v, s.zones.look z = some e → s.status.look z = some r → s.vent.look z = some v →
          t.vent.look z = some { v with
            alloc := v.alloc.map fun _ => 0
            floor := if r.holdOut then e.baseFlow else v.floor
            want := if r.holdOut then max e.baseFlow (s.stageFlow v.wanted) else v.want })
      ∧ (∀ n k, s.shafts.look n = some k → t.shafts.look n = some { k with flow := 0, taken := [], speed := 100 })
      ∧ (∀ d x, s.drives.look d = some x → s.nodeAlone d x →
          (∀ n rated, x.duty = .shaft n rated → s.shafts.has n = true → commandedTo s t x.seg x.addr 100)
          ∧ ∀ z e, x.duty = .jet z → s.zones.look z = some e →
              commandedTo s t x.seg x.addr (if e.level = l.toNat then s.sp 29 else 0))
      ∧ (∀ z x, s.zones.has z = true → s.lights.look z = some x → ∃ x', t.lights.look z = some x' ∧ x'.level = 100
          ∧ x'.line = .smoke ∧ x'.capped = false)
      ∧ (∀ k g, s.signs.look k = some g → ∃ g', t.signs.look k = some g' ∧ g' = { g with target := .closed })
      ∧ (∀ q, setHas (s.notices.at q).routing .smoke = true → setHas (t.notices.at q).pending .smoke = true)
      ∧ Keeps { smoke := true, status := true, segs := true, bays := true, free := true, holds := true, escorts := true,
                ends := true, signs := true, lights := true, notices := true, vent := true, shafts := true }
          (s.answering p 0x50 .ok [1#8, 1#8, l]) t

/-- From R114, R121, R130, R132 to R134. SMOKE while smoke mode stands stores another fire level, raises SMOKE and writes
only JET commands: the smoke jet speed to the zones on the new level and 0 % to the others, and nothing to a node that no
JET drive names; at the same level it changes nothing. A fire level not below the level count is refused OUT_OF_RANGE.
While smoke mode stands the three override requests on a configured zone are refused CLOSED. SMOKE CLEAR ends smoke mode: SMOKE leaves every
closure set, each zone's computed stage is taken afresh from its last D with its dwell started now and its figures follow,
every zone is lit (when the supply cap counts as applied is log entry 37's choice) and every sign's target found afresh, and
no hold is made or ended. With no smoke mode standing it
changes nothing. -/
def Obligations.SmokeStandsThenClears : Prop :=
  ∀ (p : Port) (s : State),
    (∀ (l : Byte) (n : Nat), s.ready p .fire →
      (s.smoke = some n → l.toNat < s.levelCount → n ≠ l.toNat → s.drives.rising = true → s.zones.rising = true →
        ∃ t, exec (.smoke p l) s = .next t
        ∧ t.smoke = some l.toNat
        ∧ (∀ q, setHas (s.notices.at q).routing .smoke = true → setHas (t.notices.at q).pending .smoke = true)
        ∧ (∀ d x z e, s.drives.look d = some x → s.nodeAlone d x → x.duty = .jet z → s.zones.look z = some e →
            commandedTo s t x.seg x.addr (if e.level = l.toNat then s.sp 29 else 0))
        ∧ (∀ i a, (∀ d x z, s.drives.look d = some x → x.duty = .jet z → ¬ (x.seg = i ∧ x.addr = a)) →
            t.node i a = s.node i a)
        ∧ Keeps { smoke := true, segs := true, notices := true } (s.answering p 0x50 .ok [1#8, 1#8, l]) t)
      ∧ (s.smoke = some l.toNat → l.toNat < s.levelCount →
          exec (.smoke p l) s = .next (s.answering p 0x50 .ok [1#8, 1#8, l]))
      ∧ (s.levelCount ≤ l.toNat → exec (.smoke p l) s = .next (s.answering p 0x50 .outOfRange [])))
    ∧ (∀ z x : Byte, s.smoke ≠ none → s.ready p .override → s.zones.has z.toNat = true →
      exec (.overrideStage p z x) s = .next (s.answering p 0x40 .closed [])
      ∧ exec (.overrideLight p z x) s = .next (s.answering p 0x41 .closed [])
      ∧ (x.toNat ≤ 1 → exec (.holdOut p z x) s = .next (s.answering p 0x42 .closed [])))
    ∧ (s.ready p .fire → s.smoke = none → exec (.smokeClear p) s = .next (s.answering p 0x51 .ok [0#8, 0#8]))
    ∧ (∀ n, s.ready p .fire → s.smoke = some n → s.tablesRising = true → ∃ t, exec (.smokeClear p) s = .next t
      ∧ t.smoke = none
      ∧ (∀ z r, s.zones.has z = true → s.status.look z = some r →
          t.status.look z = some { r with closure := { r.closure with smoke := false } })
      ∧ (∀ z v a, s.vent.look z = some v → s.air.look z = some a → ∃ v', t.vent.look z = some v'
          ∧ v'.computed = s.stageOf a.demand ∧ v'.dwell = s.timebase ∧ t.figuredAs z v')
      ∧ (∀ z x, s.zones.has z = true → s.lights.look z = some x → ∃ x', t.lights.look z = some x'
          ∧ x'.state = x.state ∧ t.litAsTabled z x')
      ∧ (∀ k g, s.signs.look k = some g → t.signs.look k = some { g with target := t.tabledTarget g })
      ∧ t.holds = s.holds ∧ t.bays = s.bays ∧ t.escorts = s.escorts
      ∧ (∀ q, setHas (s.notices.at q).routing .smoke = true → setHas (t.notices.at q).pending .smoke = true)
      ∧ Keeps { smoke := true, status := true, segs := true, signs := true, lights := true, notices := true,
                vent := true, shafts := true } (s.answering p 0x51 .ok [0#8, 0#8]) t)

/-! ### Administration and notices -/

/-- R190 and R202, with R189 and R191 in part. SET RIGHTS refuses a port above 3, then a set with bit 6 or 7, then a locked
port; it stores the written set with FIRE held exactly at a FIRE port, and ends the lapse condition where OVERRIDE goes to
a port that is not silent. LOCK RIGHTS refuses a port above 3 and sets the lock. Nothing else changes but the requesting
port. SET ROUTING replaces the named port's routing set; SET NOTICE MASK replaces the requesting port's mask and
re-evaluates its line (R199); SET AUTO ACK writes its flag. A port above 3 and a code that is no flag are refused. No set
of pending or taken classes changes, whether or not a port is locked. -/
def Obligations.RightsLocksAndNoticeSettings : Prop :=
  (∀ (p q : Port) (x b : Byte) (s : State), s.ready p .admin →
     (3 < x.toNat → exec (.setRights p x b) s = .next (s.answering p 0x60 .outOfRange [])
       ∧ exec (.lockRights p x) s = .next (s.answering p 0x61 .outOfRange []))
     ∧ (portOfNumber x.toNat = some q →
       let asked := s.answering p 0x60 .ok []
       let legal : Rights := { Rights.ofByte b with fire := decide ((s.ports.at q).role = some .fire) }
       let lapseEnds := legal.override && decide (asked.silence q < s.silenceLimit)
       let answered := s.answering p 0x60 .ok [x, legal.byte]
       let locked := s.answering p 0x61 .ok [x, (s.ports.at q).rights.byte, 1#8]
       (64 ≤ b.toNat → exec (.setRights p x b) s = .next (s.answering p 0x60 .outOfRange []))
       ∧ (b.toNat < 64 → (s.ports.at q).locked = true →
           exec (.setRights p x b) s = .next (s.answering p 0x60 .locked []))
       ∧ (b.toNat < 64 → (s.ports.at q).locked = false → exec (.setRights p x b) s = .next
           { answered with
             ports := answered.ports.adjust q (fun r => { r with rights := legal })
             lapse := if lapseEnds then .watching else answered.lapse
             lapseHolds := if lapseEnds then false else answered.lapseHolds })
       ∧ exec (.lockRights p x) s = .next (locked.withPort q (fun r => { r with locked := true }))))
  ∧ ∀ (p : Port) (x b : Byte) (s : State),
      (s.ready p .admin → 3 < x.toNat → exec (.setRouting p x b) s = .next (s.answering p 0x62 .outOfRange []))
      ∧ (∀ q, s.ready p .admin → portOfNumber x.toNat = some q → exec (.setRouting p x b) s = .next
        { s.answering p 0x62 .ok [b] with notices := s.notices.adjust q (fun r => { r with routing := b }) })
      ∧ (s.ready p .read → ∃ t, exec (.setNoticeMask p b) s = .next t
        ∧ t.notices.at p = { s.notices.at p with mask := b, line := (t.notices.at p).line } ∧ (t.notices.at p).sound = true
        ∧ (∀ q, q ≠ p → t.notices.at q = s.notices.at q)
        ∧ Keeps { notices := true } (s.answering p 0x63 .ok [b]) t)
      ∧ (∀ flag, s.ready p .read → flagOfCode b.toNat = some flag → exec (.setAutoAck p b) s = .next
        { s.answering p 0x64 .ok (flagField flag) with
          notices := s.notices.adjust p (fun r => { r with autoAck := flag }) })
      ∧ (s.ready p .read → 1 < b.toNat → exec (.setAutoAck p b) s = .next (s.answering p 0x64 .outOfRange []))

/-- R200 and R201: POLL NOTICE answers with the highest-priority class that is pending, unmasked and above every taken
class, which leaves the pending set and, with auto-acknowledge clear, enters the taken set; with none it answers NONE and
changes nothing. ACK NOTICE removes the named class, or the highest-priority taken one, from the taken set, answers with
that set and never touches the pending set. -/
def Obligations.PollAndAckNotices : Prop :=
  (∀ (p : Port) (s : State), s.ready p .read →
    let r := s.notices.at p
    let able := fun c => setHas r.pending c = true ∧ setHas r.mask c = false
      ∧ ∀ d, setHas r.taken d = true → c.priority < d.priority
    ((∀ c, ¬ able c) → exec (.pollNotice p) s = .next (s.answering p 0x70 .ok [8#8]))
    ∧ ∀ c, able c → (∀ d, able d → c.priority ≤ d.priority) → ∃ t, exec (.pollNotice p) s = .next t
        ∧ (∀ d, setHas (t.notices.at p).pending d = (setHas r.pending d && d != c))
        ∧ (∀ d, setHas (t.notices.at p).taken d = (setHas r.taken d || (d == c && !r.autoAck)))
        ∧ (t.notices.at p).sound = true
        ∧ t.notices.at p = { r with
            pending := (t.notices.at p).pending, taken := (t.notices.at p).taken, line := (t.notices.at p).line }
        ∧ (∀ q, q ≠ p → t.notices.at q = s.notices.at q)
        ∧ Keeps { notices := true } (s.answering p 0x70 .ok [BitVec.ofNat 8 c.priority]) t)
  ∧ ∀ (p : Port) (s : State), s.ready p .read →
    let r := s.notices.at p
    let acked := fun (c : NoticeClass) (t : State) =>
      (∀ d, setHas (t.notices.at p).taken d = (setHas r.taken d && d != c))
      ∧ t.notices.at p = { r with taken := (t.notices.at p).taken, line := (t.notices.at p).line }
      ∧ (t.notices.at p).sound = true ∧ (∀ q, q ≠ p → t.notices.at q = s.notices.at q)
      ∧ Keeps { notices := true } (s.answering p 0x71 .ok [(t.notices.at p).taken]) t
    (∀ (b : Byte) (c : NoticeClass), b.toNat = c.priority →
      ∃ t, exec (.ackNotice p (some b)) s = .next t ∧ acked c t)
    ∧ (∀ c, setHas r.taken c = true → (∀ d, setHas r.taken d = true → c.priority ≤ d.priority) →
      ∃ t, exec (.ackNotice p none) s = .next t ∧ acked c t)
    ∧ (r.taken = 0 → exec (.ackNotice p none) s = .next (s.answering p 0x71 .ok [0#8]))
    ∧ (∀ b : Byte, 8 ≤ b.toNat → exec (.ackNotice p (some b)) s = .next (s.answering p 0x71 .outOfRange []))

/-- R23, R45, R67, R89, R118, R134, R137, R162, R171, R182, R196, R203: while smoke mode stands RESTART is refused LOCKED;
otherwise it is a warm restart. Its reply carries the new restart count and the state DISCOVERING, also where no segment
is in use and the part goes on to RUN at once (log entry 14). Every block takes its warm values: what they clear and what
they keep: of a port its error and overrun counts, its receive state (that of RESTART's own port is IDLE, its frame being
whole) and another port's reply in progress. Zones are lit (when the supply cap counts as applied is log entry 37's choice)
and targets found afresh; a LAMP node that one lamp channel alone names is commanded its zone's level, a SIGN node that one
sign alone names its target, and a node that no lamp and no sign names keeps its commanded value. -/
def Obligations.RestartIsWarm : Prop :=
  ∀ (p : Port) (s : State), s.ready p .admin →
    (s.smoke ≠ none → exec (.restart p) s = .next (s.answering p 0x65 .locked []))
    ∧ ∀ o : Options, s.smoke = none → s.options = some o → ∃ t, exec (.restart p) s = .next t
      ∧ (o.segments = 0#8 → t.part = .run)
      ∧ t.restarts = (if s.restarts < 65535 then s.restarts + 1 else s.restarts)
      ∧ (t.ports.at p).tx =
          some ⟨stationReply 0x65 .ok (u16 (if s.restarts < 65535 then s.restarts + 1 else s.restarts) ++ [1#8]), s.rate⟩
      ∧ (∀ i g, s.segs.look i = some g → o.segments.getLsbD i = true → t.part = .discovering ∧ ∃ g',
          t.segs.look i = some g' ∧ g' = ⟨.discovering, .wakeActive, none, 0, 0, false, false, 0, 0, g'.nodes⟩
          ∧ ∀ a n, g.nodes.look a = some n → ∃ n', g'.nodes.look a = some n'
              ∧ n' = ⟨n.kind, .expected, 0, none, n'.commanded, none, none⟩
              ∧ ((∀ c x, s.lamps.look c = some x → ¬ (x.seg = i ∧ x.addr = a)) →
                  (∀ k x, s.signs.look k = some x → ¬ (x.seg = i ∧ x.addr = a)) → s.lamps.rising = true →
                  s.signs.rising = true → n'.commanded = n.commanded)
              ∧ (∀ c x l', s.lamps.look c = some x → x.seg = i → x.addr = a → s.zones.has x.zone = true →
                  (∀ c' x', s.lamps.look c' = some x' → c' ≠ c → x'.zone ≠ x.zone ∧ ¬ (x'.seg = i ∧ x'.addr = a)) →
                  (∀ k x', s.signs.look k = some x' → ¬ (x'.seg = i ∧ x'.addr = a)) → s.lamps.rising = true →
                  s.signs.rising = true → t.lights.look x.zone = some l' → n'.commanded = some (.percent l'.level))
              ∧ (∀ k x, s.signs.look k = some x → x.seg = i → x.addr = a →
                  (∀ k' x', s.signs.look k' = some x' → k' ≠ k → ¬ (x'.seg = i ∧ x'.addr = a)) → s.signs.rising = true →
                  n'.commanded = some (.display (t.tabledTarget x))))
      ∧ (∀ b r, s.bays.look b = some r → t.bays.look b =
          some { r with occ := .unknown, raw := none, deadline := none, hold := none })
      ∧ (∀ z c, s.free.look z = some c → t.free.look z = some ⟨0, 0, 0, 0⟩)
      ∧ (∀ c x, s.gas.look c = some x → t.gas.look c = some { x with status := none })
      ∧ (∀ z a, s.air.look z = some a → t.air.look z = some { a with
          lossStart := if (s.gas.any fun e => e.2.zone == z) = true then some s.timebase else a.lossStart
          graceDue := false })
      ∧ (∀ z r, s.status.look z = some r → t.status.look z = some ⟨r.closure, none, none, false⟩)
      ∧ (∀ z v, s.vent.look z = some v → ∃ v', t.vent.look z = some v' ∧ v'.computed = v.computed ∧ v'.dwell = v.dwell
          ∧ v'.alarmMin = v.alarmMin ∧ v'.wanted = max v.computed v.alarmMin
          ∧ v'.jetFault = false ∧ v'.alloc = (s.shaftOf z).map (fun _ => 0)
          ∧ (∀ e, s.zones.look z = some e → v'.floor = e.baseFlow ∧ v'.want = max e.baseFlow (s.stageFlow v'.wanted)
              ∧ s.carries v'.wanted (if e.shaft = none then v'.want else 0) v'.effective))
      ∧ (∀ n k, s.shafts.look n = some k → t.shafts.look n = some ⟨k.mode, k.ring, [], 0, 0, 0, 0⟩)
      ∧ (∀ d r, s.drives.look d = some r → t.drives.look d = some { r with avail := .waiting, reported := none })
      ∧ (∀ z l, s.zones.has z = true → s.lights.look z = some l → ∃ l', t.lights.look z = some l' ∧ t.litAsTabled z l'
          ∧ l' = ⟨.standby, some (s.timebase + s.sp 36), 0, l'.level, l'.line, l'.capped, none⟩)
      ∧ (∀ k g, s.signs.look k = some g → t.signs.look k =
          some ⟨g.seg, g.addr, g.filter, g.zones, t.tabledTarget g, .opened, none, none, none⟩)
      ∧ t.holds = [] ∧ t.holdPtr = 63 ∧ (∀ z n, s.escorts.look z = some n → t.escorts.look z = some 0)
      ∧ (∀ q, t.ends.at q = ⟨[], false⟩ ∧ (t.notices.at q) = { s.notices.at q with
          pending := 0, taken := 0, baseline := none, line := false })
      ∧ (∀ q, (t.ports.at q).lastRequest = s.timebase ∧ (t.ports.at q).role = (s.ports.at q).role
          ∧ (t.ports.at q).rights = (s.ports.at q).rights ∧ (t.ports.at q).locked = (s.ports.at q).locked
          ∧ (t.ports.at q).errors = (s.ports.at q).errors ∧ (t.ports.at q).overruns = (s.ports.at q).overruns
          ∧ (t.ports.at q).rx = (if q = p then .idle else (s.ports.at q).rx)
          ∧ (q ≠ p → (t.ports.at q).tx = (s.ports.at q).tx))
      ∧ t.rate = s.rate ∧ t.lapse = .watching ∧ t.supply = s.supply ∧ t.setpoints = s.setpoints ∧ t.timebase = s.timebase
      ∧ t.zones = s.zones ∧ t.routes = s.routes ∧ t.entryRamps = s.entryRamps ∧ t.exitRamps = s.exitRamps
      ∧ t.options = s.options

/-! ### The shared operations -/

/-- R100 to R107: what a recomputation of a shaft leaves, its zones' figures as they stood and its ring without a repeat. In
ROTATING mode the zones of the taken-for-service set whose wanted stage is below 2 go to the end of the ring in their
order; the set is then the zones wanted at 2 or more whose allocation under the old ring is their want. Under the new
ring every zone holds its allocation (R101, R102) and the highest stage it carries (R103); the shaft holds their sum and
its speed (R105); its AVAILABLE drives are commanded the speed, its zones' AVAILABLE JET drives the jet speed of their
stages (R104), and no node but those of these drives is written. Each want is at least its floor (R94) and each wanted stage at most 4. -/
def Obligations.ShaftRecomputation : Prop :=
  ∀ (n : Nat) (k : Shaft) (s : State),
    s.shafts.look n = some k → k.ring.Nodup → s.drives.rising = true →
    (∀ z ∈ k.ring, ∃ v, s.vent.look z = some v ∧ v.floor ≤ v.want ∧ v.wanted ≤ 4) →
    let t := s.recomputeShaft n
    let wanted := s.ventFigure VentZone.wanted
    let retired := k.ring.filter fun z => k.taken.contains z && decide (wanted z < 2)
    let ring := if k.mode = .rotating then k.ring.filter (fun z => !retired.contains z) ++ retired else k.ring
    let share := s.tabledShare k.capacity ring
    let flow := (ring.map share).sum
    t.shafts.look n = some { k with
      ring := ring, flow := flow, speed := s.tabledSpeed flow k.rating
      taken := k.ring.filter fun z => decide (2 ≤ wanted z)
        && decide (s.tabledShare k.capacity k.ring z = s.ventFigure VentZone.want z) }
    ∧ (∀ m, m ≠ n → t.shafts.look m = s.shafts.look m)
    ∧ (∀ z v, s.vent.look z = some v → if z ∈ ring then
        ∃ e, t.vent.look z = some { v with alloc := some (share z), effective := e } ∧ s.carries v.wanted (share z) e
      else t.vent.look z = some v)
    ∧ (∀ d x, s.drives.look d = some x → x.avail = .available → s.nodeAlone d x →
        (∀ rated, x.duty = .shaft n rated → commandedTo s t x.seg x.addr (s.tabledSpeed flow k.rating))
        ∧ ∀ z, x.duty = .jet z → z ∈ ring →
            commandedTo s t x.seg x.addr (s.jetSpeed (t.ventFigure VentZone.effective z)))
    ∧ (∀ i a, (∀ d x, s.drives.look d = some x → x.avail = .available →
          (∃ rated, x.duty = .shaft n rated) ∨ (∃ z ∈ ring, x.duty = .jet z) → ¬ (x.seg = i ∧ x.addr = a)) →
        t.node i a = s.node i a)
    ∧ Keeps { segs := true, vent := true, shafts := true } s t

/-- R102: an allocation never exceeds the shaft's capacity; where the floors exceed it the whole capacity is given, and
where the wants fit it every zone is given its want, or 0 at a capacity of 0. Each zone's want is at least its floor (R94). R73: a sample moves S toward I without passing it, by at least one
unit while they differ, and by the whole distance at weight 16. -/
def Obligations.AllocationAndSmoothingBounds : Prop :=
  (∀ (cap : Nat) (claims : List Claim), (∀ c ∈ claims, c.floor ≤ c.want) →
     ((allocate cap claims).map Prod.snd).sum ≤ cap
     ∧ (cap < (claims.map Claim.floor).sum → ((allocate cap claims).map Prod.snd).sum = cap)
     ∧ ((claims.map Claim.want).sum ≤ cap →
         (allocate cap claims) = claims.map fun c => (c.zone, if cap = 0 then 0 else c.want)))
  ∧ ∀ k i n : Nat, 1 ≤ k → k ≤ 16 →
      (n < i → n < smoothed k i n ∧ smoothed k i n ≤ i) ∧ (i < n → i ≤ smoothed k i n ∧ smoothed k i n < n)
      ∧ smoothed k i i = i ∧ smoothed 16 i n = i

/-! ### The forms every step keeps -/

/-- R199: every port's attention line follows its pending set, taken set and mask, in every state a step gives. -/
def Obligations.AttentionLinesFollowTheirSets : Prop :=
  ∀ s t : State, s.linesSound = true → step s = .next t → t.linesSound = true

/-- R62: every zone's free counts are the counts of its bays that are FREE, unreferenced and in use, in every state a
step gives. -/
def Obligations.FreeCountsFollowTheBays : Prop :=
  ∀ s t : State, s.countsSound = true → step s = .next t → t.countsSound = true

/-- Every table of the part stays in its canonical form, places strictly rising (the model's form of the manual's
tables), and every port's hold end list holds at most 16 entries (R157). -/
def Obligations.TablesAndEndListsStayFormed : Prop :=
  ∀ s t : State, s.tablesRising = true → s.endsSound = true → step s = .next t →
    t.tablesRising = true ∧ t.endsSound = true

/-- R189: a port of role FIRE holds the FIRE right and no other port does, in every state a step gives. -/
def Obligations.FireRightFollowsTheRole : Prop :=
  ∀ s t : State, s.fireSound = true → step s = .next t → t.fireSound = true

/-- R149: every zone's escort count is the number of live holds whose route contains the zone, in every state a step
gives. -/
def Obligations.EscortCountsFollowTheHolds : Prop :=
  ∀ s t : State, s.tablesRising = true → s.escortsSound = true → step s = .next t → t.escortsSound = true

/-- R9, R10: from an installation on, the held setpoints stay legal. -/
def Obligations.SetpointsStayLegal : Prop :=
  ∀ s t : State, s.setpoints = [] ∨ setpointsLegal s.setpoints = true → step s = .next t →
    t.setpoints = [] ∨ setpointsLegal t.setpoints = true

/-- R21, R99, R106 and R95, R100 to R105, in every state a step gives. The ventilation unit's records keep their form
(`plantFormed`): rings, stages, ratings and capacities. Outside smoke mode every shaft is as a recomputation leaves it
(`plantShared`): each zone of its ring holds its allocation and the highest stage it carries, the shaft the total flow and
the speed, a zone with no shaft the highest stage its want carries, and every AVAILABLE drive with a node of its own is
commanded the speed of its shaft or the jet speed of its zone's effective stage. The
taken-for-service set and the order of a ring are not among it. The state stepped from has its tables in canonical form
(the model's) and its setpoints legal. -/
def Obligations.ShaftsStayRecomputed : Prop :=
  ∀ s t : State, s.tablesRising = true → s.setpoints = [] ∨ setpointsLegal s.setpoints = true →
    s.plantFormed = true → s.plantShared = true → step s = .next t → t.plantFormed = true ∧ t.plantShared = true

/-- The forms hold at reset. -/
def Obligations.FormsHoldAtReset : Prop :=
  State.reset.linesSound = true ∧ State.reset.countsSound = true ∧ State.reset.endsSound = true
  ∧ State.reset.tablesRising = true ∧ State.reset.fireSound = true ∧ State.reset.escortsSound = true
  ∧ State.reset.setpoints = [] ∧ State.reset.plantFormed = true ∧ State.reset.plantShared = true
end

