-- ==== Sys2Proof/Laws/Table.lean ====
section
/-! SUPPORT. What each operation of a table and of a per-port record does. -/

namespace Sys2Proof.Machine

variable {α β : Type}

/-! ### Reading after writing -/

@[simp] theorem Table.look_nil (k : Nat) : Table.look ([] : Table α) k = none := rfl

theorem Table.look_cons (j k : Nat) (v : α) (t : Table α) :
    Table.look ((j, v) :: t) k = if j = k then some v else Table.look t k := rfl

theorem Table.look_put_same (t : Table α) (k : Nat) (v : α) : (t.put k v).look k = some v := by
  induction t with
  | nil => simp [Table.put, Table.look]
  | cons e t ih =>
    obtain ⟨j, w⟩ := e
    simp only [Table.put]
    split
    · simp [Table.look]
    · split
      · simp [Table.look]
      · rename_i h; simp [Table.look, h, ih]

theorem Table.look_put_other (t : Table α) (k j : Nat) (v : α) (h : j ≠ k) : (t.put k v).look j = t.look j := by
  induction t with
  | nil => simp [Table.put, Table.look, h.symm]
  | cons e t ih =>
    obtain ⟨i, w⟩ := e
    simp only [Table.put]
    split
    · simp [Table.look, h.symm]
    · split
      · rename_i hi; subst hi; simp [Table.look, h.symm]
      · simp only [Table.look]; split <;> simp_all

theorem Table.look_adjust (t : Table α) (k j : Nat) (f : α → α) :
    (t.adjust k f).look j = if j = k then (t.look j).map f else t.look j := by
  induction t with
  | nil => simp [Table.adjust, Table.look]
  | cons e t ih =>
    obtain ⟨i, w⟩ := e
    simp only [Table.adjust]
    by_cases hik : i = k
    · subst hik
      by_cases hji : j = i
      · subst hji; simp [Table.look]
      · simp [Table.look, hji, Ne.symm hji]
    · by_cases hij : i = j
      · subst hij; simp [Table.look, hik]
      · simp [Table.look, hik, hij, ih]

theorem Table.look_each (t : Table α) (k : Nat) (f : Nat → α → α) : (t.each f).look k = (t.look k).map (f k) := by
  induction t with
  | nil => rfl
  | cons e t ih =>
    obtain ⟨i, w⟩ := e
    show Table.look ((i, f i w) :: Table.each t f) k = _
    by_cases h : i = k
    · subst h; simp [Table.look]
    · simp [Table.look, h, ih]

theorem Table.look_remove (t : Table α) (k j : Nat) : (t.remove k).look j = if j = k then none else t.look j := by
  induction t with
  | nil => simp [Table.remove, Table.look]
  | cons e t ih =>
    obtain ⟨i, w⟩ := e
    simp only [Table.remove] at ih ⊢
    rw [List.filter_cons]
    by_cases h : i = k
    · subst h
      by_cases hj : j = i
      · subst hj; simp [ih]
      · simp [Table.look, ih, hj, Ne.symm hj]
    · by_cases hij : i = j
      · subst hij; simp [Table.look, h]
      · simp [Table.look, h, hij, ih]

/-! ### The places of a table -/

@[simp] theorem Table.places_adjust (t : Table α) (k : Nat) (f : α → α) : (t.adjust k f).places = t.places := by
  induction t with
  | nil => rfl
  | cons e t ih =>
    obtain ⟨i, w⟩ := e
    simp only [Table.adjust]
    split
    · rfl
    · simpa [Table.places] using ih

@[simp] theorem Table.places_each (t : Table α) (f : Nat → α → α) : (t.each f).places = t.places := by
  simp [Table.places, Table.each]

@[simp] theorem Table.has_adjust (t : Table α) (k j : Nat) (f : α → α) : (t.adjust k f).has j = t.has j := by
  simp only [Table.has, Table.look_adjust]; split <;> simp

@[simp] theorem Table.has_each (t : Table α) (j : Nat) (f : Nat → α → α) : (t.each f).has j = t.has j := by
  simp [Table.has, Table.look_each]

theorem Table.mem_places_iff_has (t : Table α) (k : Nat) : k ∈ t.places ↔ t.has k = true := by
  induction t with
  | nil => simp [Table.places, Table.has]
  | cons e t ih =>
    obtain ⟨i, w⟩ := e
    simp only [Table.places, Table.has, List.map_cons, List.mem_cons, Table.look] at ih ⊢
    by_cases h : i = k
    · simp [h]
    · simp [h, ih, Ne.symm h]

/-! ### The canonical form -/

/-- The canonical form as a relation on neighbouring places. -/
theorem Table.rising_iff (t : Table α) : t.rising = true ↔ t.Pairwise fun a b => a.1 < b.1 := by
  induction t with
  | nil => simp [Table.rising]
  | cons e t ih =>
    obtain ⟨j, v⟩ := e
    simp [Table.rising, List.pairwise_cons, ih]

theorem Table.rising_of_places (t : Table α) (u : Table β) (h : u.places = t.places) : u.rising = t.rising := by
  rw [Bool.eq_iff_iff, Table.rising_iff, Table.rising_iff]
  have key : ∀ {γ : Type} (w : Table γ), (w.Pairwise fun a b => a.1 < b.1) ↔ w.places.Pairwise (· < ·) := by
    intro γ w; simp [Table.places, List.pairwise_map]
  rw [key, key, h]

@[simp] theorem Table.rising_adjust (t : Table α) (k : Nat) (f : α → α) : (t.adjust k f).rising = t.rising :=
  Table.rising_of_places _ _ (Table.places_adjust t k f)

@[simp] theorem Table.rising_each (t : Table α) (f : Nat → α → α) : (t.each f).rising = t.rising :=
  Table.rising_of_places _ _ (Table.places_each t f)

theorem Table.rising_remove (t : Table α) (k : Nat) (h : t.rising = true) : (t.remove k).rising = true := by
  rw [Table.rising_iff] at h ⊢
  exact h.sublist List.filter_sublist

theorem Table.mem_put (t : Table α) (k : Nat) (v : α) (e : Nat × α) (h : e ∈ t.put k v) : e.1 = k ∨ e ∈ t := by
  induction t with
  | nil => simp [Table.put] at h; simp [h]
  | cons x t ih =>
    obtain ⟨j, w⟩ := x
    simp only [Table.put] at h
    split at h
    · simp at h; rcases h with h | h | h <;> simp [h]
    · split at h
      · simp at h; rcases h with h | h <;> simp [h]
      · simp at h; rcases h with h | h
        · simp [h]
        · rcases ih h with h | h <;> simp [h]

theorem Table.rising_put (t : Table α) (k : Nat) (v : α) (h : t.rising = true) : (t.put k v).rising = true := by
  rw [Table.rising_iff] at h ⊢
  induction t with
  | nil => simp [Table.put]
  | cons e t ih =>
    obtain ⟨j, w⟩ := e
    rw [List.pairwise_cons] at h
    simp only [Table.put]
    split
    · rename_i hk
      rw [List.pairwise_cons, List.pairwise_cons]
      refine ⟨?_, h⟩
      intro e he
      rcases List.mem_cons.1 he with rfl | he
      · exact hk
      · exact lt_trans hk (h.1 e he)
    · split
      · rename_i _ hk; subst hk; rw [List.pairwise_cons]; exact h
      · rename_i h1 h2
        rw [List.pairwise_cons]
        refine ⟨?_, ih h.2⟩
        intro e he
        rcases Table.mem_put _ _ _ _ he with he | he
        · rw [he]; show j < k; omega
        · exact h.1 e he

/-! ### The four ports -/

theorem Quad.at_adjust (q : Quad α) (p r : Port) (f : α → α) :
    (q.adjust p f).at r = if r = p then f (q.at r) else q.at r := by
  cases p <;> cases r <;> rfl

@[simp] theorem Quad.at_adjust_same (q : Quad α) (p : Port) (f : α → α) : (q.adjust p f).at p = f (q.at p) := by
  cases p <;> rfl

@[simp] theorem Quad.at_each (q : Quad α) (p : Port) (f : α → α) : (q.each f).at p = f (q.at p) := by cases p <;> rfl

@[simp] theorem Quad.at_all (a : α) (p : Port) : (Quad.all a).at p = a := by cases p <;> rfl

theorem Quad.all_iff (q : Quad α) (f : α → Bool) : q.toList.all f = true ↔ ∀ p, f (q.at p) = true := by
  constructor
  · intro h p
    simp [Quad.toList] at h
    cases p <;> simp [Quad.at, h]
  · intro h
    simp only [Quad.toList, List.all_cons, List.all_nil, Bool.and_true, Bool.and_eq_true]
    exact ⟨h .s0, h .s1, h .s2, h .s3⟩

end Sys2Proof.Machine
end

