-- ==== Sys2Proof/Laws/State.lean ====
section
/-! SUPPORT. One lemma per field per update of the state, so that no later proof unfolds a record update. -/

namespace Sys2Proof.Machine

variable (s : State)

/-! ### `State.onSeg` -/

section
variable (i : Nat) (f : Segment → Segment)

@[simp] theorem State.onSeg_pending : (s.onSeg i f).pending = s.pending := rfl
@[simp] theorem State.onSeg_resetLow : (s.onSeg i f).resetLow = s.resetLow := rfl
@[simp] theorem State.onSeg_part : (s.onSeg i f).part = s.part := rfl
@[simp] theorem State.onSeg_restarts : (s.onSeg i f).restarts = s.restarts := rfl
@[simp] theorem State.onSeg_rejection : (s.onSeg i f).rejection = s.rejection := rfl
@[simp] theorem State.onSeg_timebase : (s.onSeg i f).timebase = s.timebase := rfl
@[simp] theorem State.onSeg_minuteDue : (s.onSeg i f).minuteDue = s.minuteDue := rfl
@[simp] theorem State.onSeg_rate : (s.onSeg i f).rate = s.rate := rfl
@[simp] theorem State.onSeg_options : (s.onSeg i f).options = s.options := rfl
@[simp] theorem State.onSeg_levelCount : (s.onSeg i f).levelCount = s.levelCount := rfl
@[simp] theorem State.onSeg_setpoints : (s.onSeg i f).setpoints = s.setpoints := rfl
@[simp] theorem State.onSeg_zones : (s.onSeg i f).zones = s.zones := rfl
@[simp] theorem State.onSeg_lamps : (s.onSeg i f).lamps = s.lamps := rfl
@[simp] theorem State.onSeg_imageBus : (s.onSeg i f).imageBus = s.imageBus := rfl
@[simp] theorem State.onSeg_routes : (s.onSeg i f).routes = s.routes := rfl
@[simp] theorem State.onSeg_entryRamps : (s.onSeg i f).entryRamps = s.entryRamps := rfl
@[simp] theorem State.onSeg_exitRamps : (s.onSeg i f).exitRamps = s.exitRamps := rfl
@[simp] theorem State.onSeg_segs : (s.onSeg i f).segs = s.segs.adjust i f := rfl
@[simp] theorem State.onSeg_bays : (s.onSeg i f).bays = s.bays := rfl
@[simp] theorem State.onSeg_free : (s.onSeg i f).free = s.free := rfl
@[simp] theorem State.onSeg_gas : (s.onSeg i f).gas = s.gas := rfl
@[simp] theorem State.onSeg_air : (s.onSeg i f).air = s.air := rfl
@[simp] theorem State.onSeg_drives : (s.onSeg i f).drives = s.drives := rfl
@[simp] theorem State.onSeg_vent : (s.onSeg i f).vent = s.vent := rfl
@[simp] theorem State.onSeg_shafts : (s.onSeg i f).shafts = s.shafts := rfl
@[simp] theorem State.onSeg_status : (s.onSeg i f).status = s.status := rfl
@[simp] theorem State.onSeg_supply : (s.onSeg i f).supply = s.supply := rfl
@[simp] theorem State.onSeg_smoke : (s.onSeg i f).smoke = s.smoke := rfl
@[simp] theorem State.onSeg_lapse : (s.onSeg i f).lapse = s.lapse := rfl
@[simp] theorem State.onSeg_lapseHolds : (s.onSeg i f).lapseHolds = s.lapseHolds := rfl
@[simp] theorem State.onSeg_holds : (s.onSeg i f).holds = s.holds := rfl
@[simp] theorem State.onSeg_holdPtr : (s.onSeg i f).holdPtr = s.holdPtr := rfl
@[simp] theorem State.onSeg_escorts : (s.onSeg i f).escorts = s.escorts := rfl
@[simp] theorem State.onSeg_ends : (s.onSeg i f).ends = s.ends := rfl
@[simp] theorem State.onSeg_signs : (s.onSeg i f).signs = s.signs := rfl
@[simp] theorem State.onSeg_lights : (s.onSeg i f).lights = s.lights := rfl
@[simp] theorem State.onSeg_ports : (s.onSeg i f).ports = s.ports := rfl
@[simp] theorem State.onSeg_notices : (s.onSeg i f).notices = s.notices := rfl

end

/-! ### `State.onBay` -/

section
variable (b : Nat) (f : Bay → Bay)

@[simp] theorem State.onBay_pending : (s.onBay b f).pending = s.pending := rfl
@[simp] theorem State.onBay_resetLow : (s.onBay b f).resetLow = s.resetLow := rfl
@[simp] theorem State.onBay_part : (s.onBay b f).part = s.part := rfl
@[simp] theorem State.onBay_restarts : (s.onBay b f).restarts = s.restarts := rfl
@[simp] theorem State.onBay_rejection : (s.onBay b f).rejection = s.rejection := rfl
@[simp] theorem State.onBay_timebase : (s.onBay b f).timebase = s.timebase := rfl
@[simp] theorem State.onBay_minuteDue : (s.onBay b f).minuteDue = s.minuteDue := rfl
@[simp] theorem State.onBay_rate : (s.onBay b f).rate = s.rate := rfl
@[simp] theorem State.onBay_options : (s.onBay b f).options = s.options := rfl
@[simp] theorem State.onBay_levelCount : (s.onBay b f).levelCount = s.levelCount := rfl
@[simp] theorem State.onBay_setpoints : (s.onBay b f).setpoints = s.setpoints := rfl
@[simp] theorem State.onBay_zones : (s.onBay b f).zones = s.zones := rfl
@[simp] theorem State.onBay_lamps : (s.onBay b f).lamps = s.lamps := rfl
@[simp] theorem State.onBay_imageBus : (s.onBay b f).imageBus = s.imageBus := rfl
@[simp] theorem State.onBay_routes : (s.onBay b f).routes = s.routes := rfl
@[simp] theorem State.onBay_entryRamps : (s.onBay b f).entryRamps = s.entryRamps := rfl
@[simp] theorem State.onBay_exitRamps : (s.onBay b f).exitRamps = s.exitRamps := rfl
@[simp] theorem State.onBay_segs : (s.onBay b f).segs = s.segs := rfl
@[simp] theorem State.onBay_bays : (s.onBay b f).bays = s.bays.adjust b f := rfl
@[simp] theorem State.onBay_free : (s.onBay b f).free = s.free := rfl
@[simp] theorem State.onBay_gas : (s.onBay b f).gas = s.gas := rfl
@[simp] theorem State.onBay_air : (s.onBay b f).air = s.air := rfl
@[simp] theorem State.onBay_drives : (s.onBay b f).drives = s.drives := rfl
@[simp] theorem State.onBay_vent : (s.onBay b f).vent = s.vent := rfl
@[simp] theorem State.onBay_shafts : (s.onBay b f).shafts = s.shafts := rfl
@[simp] theorem State.onBay_status : (s.onBay b f).status = s.status := rfl
@[simp] theorem State.onBay_supply : (s.onBay b f).supply = s.supply := rfl
@[simp] theorem State.onBay_smoke : (s.onBay b f).smoke = s.smoke := rfl
@[simp] theorem State.onBay_lapse : (s.onBay b f).lapse = s.lapse := rfl
@[simp] theorem State.onBay_lapseHolds : (s.onBay b f).lapseHolds = s.lapseHolds := rfl
@[simp] theorem State.onBay_holds : (s.onBay b f).holds = s.holds := rfl
@[simp] theorem State.onBay_holdPtr : (s.onBay b f).holdPtr = s.holdPtr := rfl
@[simp] theorem State.onBay_escorts : (s.onBay b f).escorts = s.escorts := rfl
@[simp] theorem State.onBay_ends : (s.onBay b f).ends = s.ends := rfl
@[simp] theorem State.onBay_signs : (s.onBay b f).signs = s.signs := rfl
@[simp] theorem State.onBay_lights : (s.onBay b f).lights = s.lights := rfl
@[simp] theorem State.onBay_ports : (s.onBay b f).ports = s.ports := rfl
@[simp] theorem State.onBay_notices : (s.onBay b f).notices = s.notices := rfl

end

/-! ### `State.onGas` -/

section
variable (c : Nat) (f : GasChannel → GasChannel)

@[simp] theorem State.onGas_pending : (s.onGas c f).pending = s.pending := rfl
@[simp] theorem State.onGas_resetLow : (s.onGas c f).resetLow = s.resetLow := rfl
@[simp] theorem State.onGas_part : (s.onGas c f).part = s.part := rfl
@[simp] theorem State.onGas_restarts : (s.onGas c f).restarts = s.restarts := rfl
@[simp] theorem State.onGas_rejection : (s.onGas c f).rejection = s.rejection := rfl
@[simp] theorem State.onGas_timebase : (s.onGas c f).timebase = s.timebase := rfl
@[simp] theorem State.onGas_minuteDue : (s.onGas c f).minuteDue = s.minuteDue := rfl
@[simp] theorem State.onGas_rate : (s.onGas c f).rate = s.rate := rfl
@[simp] theorem State.onGas_options : (s.onGas c f).options = s.options := rfl
@[simp] theorem State.onGas_levelCount : (s.onGas c f).levelCount = s.levelCount := rfl
@[simp] theorem State.onGas_setpoints : (s.onGas c f).setpoints = s.setpoints := rfl
@[simp] theorem State.onGas_zones : (s.onGas c f).zones = s.zones := rfl
@[simp] theorem State.onGas_lamps : (s.onGas c f).lamps = s.lamps := rfl
@[simp] theorem State.onGas_imageBus : (s.onGas c f).imageBus = s.imageBus := rfl
@[simp] theorem State.onGas_routes : (s.onGas c f).routes = s.routes := rfl
@[simp] theorem State.onGas_entryRamps : (s.onGas c f).entryRamps = s.entryRamps := rfl
@[simp] theorem State.onGas_exitRamps : (s.onGas c f).exitRamps = s.exitRamps := rfl
@[simp] theorem State.onGas_segs : (s.onGas c f).segs = s.segs := rfl
@[simp] theorem State.onGas_bays : (s.onGas c f).bays = s.bays := rfl
@[simp] theorem State.onGas_free : (s.onGas c f).free = s.free := rfl
@[simp] theorem State.onGas_gas : (s.onGas c f).gas = s.gas.adjust c f := rfl
@[simp] theorem State.onGas_air : (s.onGas c f).air = s.air := rfl
@[simp] theorem State.onGas_drives : (s.onGas c f).drives = s.drives := rfl
@[simp] theorem State.onGas_vent : (s.onGas c f).vent = s.vent := rfl
@[simp] theorem State.onGas_shafts : (s.onGas c f).shafts = s.shafts := rfl
@[simp] theorem State.onGas_status : (s.onGas c f).status = s.status := rfl
@[simp] theorem State.onGas_supply : (s.onGas c f).supply = s.supply := rfl
@[simp] theorem State.onGas_smoke : (s.onGas c f).smoke = s.smoke := rfl
@[simp] theorem State.onGas_lapse : (s.onGas c f).lapse = s.lapse := rfl
@[simp] theorem State.onGas_lapseHolds : (s.onGas c f).lapseHolds = s.lapseHolds := rfl
@[simp] theorem State.onGas_holds : (s.onGas c f).holds = s.holds := rfl
@[simp] theorem State.onGas_holdPtr : (s.onGas c f).holdPtr = s.holdPtr := rfl
@[simp] theorem State.onGas_escorts : (s.onGas c f).escorts = s.escorts := rfl
@[simp] theorem State.onGas_ends : (s.onGas c f).ends = s.ends := rfl
@[simp] theorem State.onGas_signs : (s.onGas c f).signs = s.signs := rfl
@[simp] theorem State.onGas_lights : (s.onGas c f).lights = s.lights := rfl
@[simp] theorem State.onGas_ports : (s.onGas c f).ports = s.ports := rfl
@[simp] theorem State.onGas_notices : (s.onGas c f).notices = s.notices := rfl

end

/-! ### `State.onAir` -/

section
variable (z : Nat) (f : AirZone → AirZone)

@[simp] theorem State.onAir_pending : (s.onAir z f).pending = s.pending := rfl
@[simp] theorem State.onAir_resetLow : (s.onAir z f).resetLow = s.resetLow := rfl
@[simp] theorem State.onAir_part : (s.onAir z f).part = s.part := rfl
@[simp] theorem State.onAir_restarts : (s.onAir z f).restarts = s.restarts := rfl
@[simp] theorem State.onAir_rejection : (s.onAir z f).rejection = s.rejection := rfl
@[simp] theorem State.onAir_timebase : (s.onAir z f).timebase = s.timebase := rfl
@[simp] theorem State.onAir_minuteDue : (s.onAir z f).minuteDue = s.minuteDue := rfl
@[simp] theorem State.onAir_rate : (s.onAir z f).rate = s.rate := rfl
@[simp] theorem State.onAir_options : (s.onAir z f).options = s.options := rfl
@[simp] theorem State.onAir_levelCount : (s.onAir z f).levelCount = s.levelCount := rfl
@[simp] theorem State.onAir_setpoints : (s.onAir z f).setpoints = s.setpoints := rfl
@[simp] theorem State.onAir_zones : (s.onAir z f).zones = s.zones := rfl
@[simp] theorem State.onAir_lamps : (s.onAir z f).lamps = s.lamps := rfl
@[simp] theorem State.onAir_imageBus : (s.onAir z f).imageBus = s.imageBus := rfl
@[simp] theorem State.onAir_routes : (s.onAir z f).routes = s.routes := rfl
@[simp] theorem State.onAir_entryRamps : (s.onAir z f).entryRamps = s.entryRamps := rfl
@[simp] theorem State.onAir_exitRamps : (s.onAir z f).exitRamps = s.exitRamps := rfl
@[simp] theorem State.onAir_segs : (s.onAir z f).segs = s.segs := rfl
@[simp] theorem State.onAir_bays : (s.onAir z f).bays = s.bays := rfl
@[simp] theorem State.onAir_free : (s.onAir z f).free = s.free := rfl
@[simp] theorem State.onAir_gas : (s.onAir z f).gas = s.gas := rfl
@[simp] theorem State.onAir_air : (s.onAir z f).air = s.air.adjust z f := rfl
@[simp] theorem State.onAir_drives : (s.onAir z f).drives = s.drives := rfl
@[simp] theorem State.onAir_vent : (s.onAir z f).vent = s.vent := rfl
@[simp] theorem State.onAir_shafts : (s.onAir z f).shafts = s.shafts := rfl
@[simp] theorem State.onAir_status : (s.onAir z f).status = s.status := rfl
@[simp] theorem State.onAir_supply : (s.onAir z f).supply = s.supply := rfl
@[simp] theorem State.onAir_smoke : (s.onAir z f).smoke = s.smoke := rfl
@[simp] theorem State.onAir_lapse : (s.onAir z f).lapse = s.lapse := rfl
@[simp] theorem State.onAir_lapseHolds : (s.onAir z f).lapseHolds = s.lapseHolds := rfl
@[simp] theorem State.onAir_holds : (s.onAir z f).holds = s.holds := rfl
@[simp] theorem State.onAir_holdPtr : (s.onAir z f).holdPtr = s.holdPtr := rfl
@[simp] theorem State.onAir_escorts : (s.onAir z f).escorts = s.escorts := rfl
@[simp] theorem State.onAir_ends : (s.onAir z f).ends = s.ends := rfl
@[simp] theorem State.onAir_signs : (s.onAir z f).signs = s.signs := rfl
@[simp] theorem State.onAir_lights : (s.onAir z f).lights = s.lights := rfl
@[simp] theorem State.onAir_ports : (s.onAir z f).ports = s.ports := rfl
@[simp] theorem State.onAir_notices : (s.onAir z f).notices = s.notices := rfl

end

/-! ### `State.onDrive` -/

section
variable (d : Nat) (f : Drive → Drive)

@[simp] theorem State.onDrive_pending : (s.onDrive d f).pending = s.pending := rfl
@[simp] theorem State.onDrive_resetLow : (s.onDrive d f).resetLow = s.resetLow := rfl
@[simp] theorem State.onDrive_part : (s.onDrive d f).part = s.part := rfl
@[simp] theorem State.onDrive_restarts : (s.onDrive d f).restarts = s.restarts := rfl
@[simp] theorem State.onDrive_rejection : (s.onDrive d f).rejection = s.rejection := rfl
@[simp] theorem State.onDrive_timebase : (s.onDrive d f).timebase = s.timebase := rfl
@[simp] theorem State.onDrive_minuteDue : (s.onDrive d f).minuteDue = s.minuteDue := rfl
@[simp] theorem State.onDrive_rate : (s.onDrive d f).rate = s.rate := rfl
@[simp] theorem State.onDrive_options : (s.onDrive d f).options = s.options := rfl
@[simp] theorem State.onDrive_levelCount : (s.onDrive d f).levelCount = s.levelCount := rfl
@[simp] theorem State.onDrive_setpoints : (s.onDrive d f).setpoints = s.setpoints := rfl
@[simp] theorem State.onDrive_zones : (s.onDrive d f).zones = s.zones := rfl
@[simp] theorem State.onDrive_lamps : (s.onDrive d f).lamps = s.lamps := rfl
@[simp] theorem State.onDrive_imageBus : (s.onDrive d f).imageBus = s.imageBus := rfl
@[simp] theorem State.onDrive_routes : (s.onDrive d f).routes = s.routes := rfl
@[simp] theorem State.onDrive_entryRamps : (s.onDrive d f).entryRamps = s.entryRamps := rfl
@[simp] theorem State.onDrive_exitRamps : (s.onDrive d f).exitRamps = s.exitRamps := rfl
@[simp] theorem State.onDrive_segs : (s.onDrive d f).segs = s.segs := rfl
@[simp] theorem State.onDrive_bays : (s.onDrive d f).bays = s.bays := rfl
@[simp] theorem State.onDrive_free : (s.onDrive d f).free = s.free := rfl
@[simp] theorem State.onDrive_gas : (s.onDrive d f).gas = s.gas := rfl
@[simp] theorem State.onDrive_air : (s.onDrive d f).air = s.air := rfl
@[simp] theorem State.onDrive_drives : (s.onDrive d f).drives = s.drives.adjust d f := rfl
@[simp] theorem State.onDrive_vent : (s.onDrive d f).vent = s.vent := rfl
@[simp] theorem State.onDrive_shafts : (s.onDrive d f).shafts = s.shafts := rfl
@[simp] theorem State.onDrive_status : (s.onDrive d f).status = s.status := rfl
@[simp] theorem State.onDrive_supply : (s.onDrive d f).supply = s.supply := rfl
@[simp] theorem State.onDrive_smoke : (s.onDrive d f).smoke = s.smoke := rfl
@[simp] theorem State.onDrive_lapse : (s.onDrive d f).lapse = s.lapse := rfl
@[simp] theorem State.onDrive_lapseHolds : (s.onDrive d f).lapseHolds = s.lapseHolds := rfl
@[simp] theorem State.onDrive_holds : (s.onDrive d f).holds = s.holds := rfl
@[simp] theorem State.onDrive_holdPtr : (s.onDrive d f).holdPtr = s.holdPtr := rfl
@[simp] theorem State.onDrive_escorts : (s.onDrive d f).escorts = s.escorts := rfl
@[simp] theorem State.onDrive_ends : (s.onDrive d f).ends = s.ends := rfl
@[simp] theorem State.onDrive_signs : (s.onDrive d f).signs = s.signs := rfl
@[simp] theorem State.onDrive_lights : (s.onDrive d f).lights = s.lights := rfl
@[simp] theorem State.onDrive_ports : (s.onDrive d f).ports = s.ports := rfl
@[simp] theorem State.onDrive_notices : (s.onDrive d f).notices = s.notices := rfl

end

/-! ### `State.onVent` -/

section
variable (z : Nat) (f : VentZone → VentZone)

@[simp] theorem State.onVent_pending : (s.onVent z f).pending = s.pending := rfl
@[simp] theorem State.onVent_resetLow : (s.onVent z f).resetLow = s.resetLow := rfl
@[simp] theorem State.onVent_part : (s.onVent z f).part = s.part := rfl
@[simp] theorem State.onVent_restarts : (s.onVent z f).restarts = s.restarts := rfl
@[simp] theorem State.onVent_rejection : (s.onVent z f).rejection = s.rejection := rfl
@[simp] theorem State.onVent_timebase : (s.onVent z f).timebase = s.timebase := rfl
@[simp] theorem State.onVent_minuteDue : (s.onVent z f).minuteDue = s.minuteDue := rfl
@[simp] theorem State.onVent_rate : (s.onVent z f).rate = s.rate := rfl
@[simp] theorem State.onVent_options : (s.onVent z f).options = s.options := rfl
@[simp] theorem State.onVent_levelCount : (s.onVent z f).levelCount = s.levelCount := rfl
@[simp] theorem State.onVent_setpoints : (s.onVent z f).setpoints = s.setpoints := rfl
@[simp] theorem State.onVent_zones : (s.onVent z f).zones = s.zones := rfl
@[simp] theorem State.onVent_lamps : (s.onVent z f).lamps = s.lamps := rfl
@[simp] theorem State.onVent_imageBus : (s.onVent z f).imageBus = s.imageBus := rfl
@[simp] theorem State.onVent_routes : (s.onVent z f).routes = s.routes := rfl
@[simp] theorem State.onVent_entryRamps : (s.onVent z f).entryRamps = s.entryRamps := rfl
@[simp] theorem State.onVent_exitRamps : (s.onVent z f).exitRamps = s.exitRamps := rfl
@[simp] theorem State.onVent_segs : (s.onVent z f).segs = s.segs := rfl
@[simp] theorem State.onVent_bays : (s.onVent z f).bays = s.bays := rfl
@[simp] theorem State.onVent_free : (s.onVent z f).free = s.free := rfl
@[simp] theorem State.onVent_gas : (s.onVent z f).gas = s.gas := rfl
@[simp] theorem State.onVent_air : (s.onVent z f).air = s.air := rfl
@[simp] theorem State.onVent_drives : (s.onVent z f).drives = s.drives := rfl
@[simp] theorem State.onVent_vent : (s.onVent z f).vent = s.vent.adjust z f := rfl
@[simp] theorem State.onVent_shafts : (s.onVent z f).shafts = s.shafts := rfl
@[simp] theorem State.onVent_status : (s.onVent z f).status = s.status := rfl
@[simp] theorem State.onVent_supply : (s.onVent z f).supply = s.supply := rfl
@[simp] theorem State.onVent_smoke : (s.onVent z f).smoke = s.smoke := rfl
@[simp] theorem State.onVent_lapse : (s.onVent z f).lapse = s.lapse := rfl
@[simp] theorem State.onVent_lapseHolds : (s.onVent z f).lapseHolds = s.lapseHolds := rfl
@[simp] theorem State.onVent_holds : (s.onVent z f).holds = s.holds := rfl
@[simp] theorem State.onVent_holdPtr : (s.onVent z f).holdPtr = s.holdPtr := rfl
@[simp] theorem State.onVent_escorts : (s.onVent z f).escorts = s.escorts := rfl
@[simp] theorem State.onVent_ends : (s.onVent z f).ends = s.ends := rfl
@[simp] theorem State.onVent_signs : (s.onVent z f).signs = s.signs := rfl
@[simp] theorem State.onVent_lights : (s.onVent z f).lights = s.lights := rfl
@[simp] theorem State.onVent_ports : (s.onVent z f).ports = s.ports := rfl
@[simp] theorem State.onVent_notices : (s.onVent z f).notices = s.notices := rfl

end

/-! ### `State.onShaft` -/

section
variable (k : Nat) (f : Shaft → Shaft)

@[simp] theorem State.onShaft_pending : (s.onShaft k f).pending = s.pending := rfl
@[simp] theorem State.onShaft_resetLow : (s.onShaft k f).resetLow = s.resetLow := rfl
@[simp] theorem State.onShaft_part : (s.onShaft k f).part = s.part := rfl
@[simp] theorem State.onShaft_restarts : (s.onShaft k f).restarts = s.restarts := rfl
@[simp] theorem State.onShaft_rejection : (s.onShaft k f).rejection = s.rejection := rfl
@[simp] theorem State.onShaft_timebase : (s.onShaft k f).timebase = s.timebase := rfl
@[simp] theorem State.onShaft_minuteDue : (s.onShaft k f).minuteDue = s.minuteDue := rfl
@[simp] theorem State.onShaft_rate : (s.onShaft k f).rate = s.rate := rfl
@[simp] theorem State.onShaft_options : (s.onShaft k f).options = s.options := rfl
@[simp] theorem State.onShaft_levelCount : (s.onShaft k f).levelCount = s.levelCount := rfl
@[simp] theorem State.onShaft_setpoints : (s.onShaft k f).setpoints = s.setpoints := rfl
@[simp] theorem State.onShaft_zones : (s.onShaft k f).zones = s.zones := rfl
@[simp] theorem State.onShaft_lamps : (s.onShaft k f).lamps = s.lamps := rfl
@[simp] theorem State.onShaft_imageBus : (s.onShaft k f).imageBus = s.imageBus := rfl
@[simp] theorem State.onShaft_routes : (s.onShaft k f).routes = s.routes := rfl
@[simp] theorem State.onShaft_entryRamps : (s.onShaft k f).entryRamps = s.entryRamps := rfl
@[simp] theorem State.onShaft_exitRamps : (s.onShaft k f).exitRamps = s.exitRamps := rfl
@[simp] theorem State.onShaft_segs : (s.onShaft k f).segs = s.segs := rfl
@[simp] theorem State.onShaft_bays : (s.onShaft k f).bays = s.bays := rfl
@[simp] theorem State.onShaft_free : (s.onShaft k f).free = s.free := rfl
@[simp] theorem State.onShaft_gas : (s.onShaft k f).gas = s.gas := rfl
@[simp] theorem State.onShaft_air : (s.onShaft k f).air = s.air := rfl
@[simp] theorem State.onShaft_drives : (s.onShaft k f).drives = s.drives := rfl
@[simp] theorem State.onShaft_vent : (s.onShaft k f).vent = s.vent := rfl
@[simp] theorem State.onShaft_shafts : (s.onShaft k f).shafts = s.shafts.adjust k f := rfl
@[simp] theorem State.onShaft_status : (s.onShaft k f).status = s.status := rfl
@[simp] theorem State.onShaft_supply : (s.onShaft k f).supply = s.supply := rfl
@[simp] theorem State.onShaft_smoke : (s.onShaft k f).smoke = s.smoke := rfl
@[simp] theorem State.onShaft_lapse : (s.onShaft k f).lapse = s.lapse := rfl
@[simp] theorem State.onShaft_lapseHolds : (s.onShaft k f).lapseHolds = s.lapseHolds := rfl
@[simp] theorem State.onShaft_holds : (s.onShaft k f).holds = s.holds := rfl
@[simp] theorem State.onShaft_holdPtr : (s.onShaft k f).holdPtr = s.holdPtr := rfl
@[simp] theorem State.onShaft_escorts : (s.onShaft k f).escorts = s.escorts := rfl
@[simp] theorem State.onShaft_ends : (s.onShaft k f).ends = s.ends := rfl
@[simp] theorem State.onShaft_signs : (s.onShaft k f).signs = s.signs := rfl
@[simp] theorem State.onShaft_lights : (s.onShaft k f).lights = s.lights := rfl
@[simp] theorem State.onShaft_ports : (s.onShaft k f).ports = s.ports := rfl
@[simp] theorem State.onShaft_notices : (s.onShaft k f).notices = s.notices := rfl

end

/-! ### `State.onStatus` -/

section
variable (z : Nat) (f : ZoneStatus → ZoneStatus)

@[simp] theorem State.onStatus_pending : (s.onStatus z f).pending = s.pending := rfl
@[simp] theorem State.onStatus_resetLow : (s.onStatus z f).resetLow = s.resetLow := rfl
@[simp] theorem State.onStatus_part : (s.onStatus z f).part = s.part := rfl
@[simp] theorem State.onStatus_restarts : (s.onStatus z f).restarts = s.restarts := rfl
@[simp] theorem State.onStatus_rejection : (s.onStatus z f).rejection = s.rejection := rfl
@[simp] theorem State.onStatus_timebase : (s.onStatus z f).timebase = s.timebase := rfl
@[simp] theorem State.onStatus_minuteDue : (s.onStatus z f).minuteDue = s.minuteDue := rfl
@[simp] theorem State.onStatus_rate : (s.onStatus z f).rate = s.rate := rfl
@[simp] theorem State.onStatus_options : (s.onStatus z f).options = s.options := rfl
@[simp] theorem State.onStatus_levelCount : (s.onStatus z f).levelCount = s.levelCount := rfl
@[simp] theorem State.onStatus_setpoints : (s.onStatus z f).setpoints = s.setpoints := rfl
@[simp] theorem State.onStatus_zones : (s.onStatus z f).zones = s.zones := rfl
@[simp] theorem State.onStatus_lamps : (s.onStatus z f).lamps = s.lamps := rfl
@[simp] theorem State.onStatus_imageBus : (s.onStatus z f).imageBus = s.imageBus := rfl
@[simp] theorem State.onStatus_routes : (s.onStatus z f).routes = s.routes := rfl
@[simp] theorem State.onStatus_entryRamps : (s.onStatus z f).entryRamps = s.entryRamps := rfl
@[simp] theorem State.onStatus_exitRamps : (s.onStatus z f).exitRamps = s.exitRamps := rfl
@[simp] theorem State.onStatus_segs : (s.onStatus z f).segs = s.segs := rfl
@[simp] theorem State.onStatus_bays : (s.onStatus z f).bays = s.bays := rfl
@[simp] theorem State.onStatus_free : (s.onStatus z f).free = s.free := rfl
@[simp] theorem State.onStatus_gas : (s.onStatus z f).gas = s.gas := rfl
@[simp] theorem State.onStatus_air : (s.onStatus z f).air = s.air := rfl
@[simp] theorem State.onStatus_drives : (s.onStatus z f).drives = s.drives := rfl
@[simp] theorem State.onStatus_vent : (s.onStatus z f).vent = s.vent := rfl
@[simp] theorem State.onStatus_shafts : (s.onStatus z f).shafts = s.shafts := rfl
@[simp] theorem State.onStatus_status : (s.onStatus z f).status = s.status.adjust z f := rfl
@[simp] theorem State.onStatus_supply : (s.onStatus z f).supply = s.supply := rfl
@[simp] theorem State.onStatus_smoke : (s.onStatus z f).smoke = s.smoke := rfl
@[simp] theorem State.onStatus_lapse : (s.onStatus z f).lapse = s.lapse := rfl
@[simp] theorem State.onStatus_lapseHolds : (s.onStatus z f).lapseHolds = s.lapseHolds := rfl
@[simp] theorem State.onStatus_holds : (s.onStatus z f).holds = s.holds := rfl
@[simp] theorem State.onStatus_holdPtr : (s.onStatus z f).holdPtr = s.holdPtr := rfl
@[simp] theorem State.onStatus_escorts : (s.onStatus z f).escorts = s.escorts := rfl
@[simp] theorem State.onStatus_ends : (s.onStatus z f).ends = s.ends := rfl
@[simp] theorem State.onStatus_signs : (s.onStatus z f).signs = s.signs := rfl
@[simp] theorem State.onStatus_lights : (s.onStatus z f).lights = s.lights := rfl
@[simp] theorem State.onStatus_ports : (s.onStatus z f).ports = s.ports := rfl
@[simp] theorem State.onStatus_notices : (s.onStatus z f).notices = s.notices := rfl

end

/-! ### `State.onLight` -/

section
variable (z : Nat) (f : LightZone → LightZone)

@[simp] theorem State.onLight_pending : (s.onLight z f).pending = s.pending := rfl
@[simp] theorem State.onLight_resetLow : (s.onLight z f).resetLow = s.resetLow := rfl
@[simp] theorem State.onLight_part : (s.onLight z f).part = s.part := rfl
@[simp] theorem State.onLight_restarts : (s.onLight z f).restarts = s.restarts := rfl
@[simp] theorem State.onLight_rejection : (s.onLight z f).rejection = s.rejection := rfl
@[simp] theorem State.onLight_timebase : (s.onLight z f).timebase = s.timebase := rfl
@[simp] theorem State.onLight_minuteDue : (s.onLight z f).minuteDue = s.minuteDue := rfl
@[simp] theorem State.onLight_rate : (s.onLight z f).rate = s.rate := rfl
@[simp] theorem State.onLight_options : (s.onLight z f).options = s.options := rfl
@[simp] theorem State.onLight_levelCount : (s.onLight z f).levelCount = s.levelCount := rfl
@[simp] theorem State.onLight_setpoints : (s.onLight z f).setpoints = s.setpoints := rfl
@[simp] theorem State.onLight_zones : (s.onLight z f).zones = s.zones := rfl
@[simp] theorem State.onLight_lamps : (s.onLight z f).lamps = s.lamps := rfl
@[simp] theorem State.onLight_imageBus : (s.onLight z f).imageBus = s.imageBus := rfl
@[simp] theorem State.onLight_routes : (s.onLight z f).routes = s.routes := rfl
@[simp] theorem State.onLight_entryRamps : (s.onLight z f).entryRamps = s.entryRamps := rfl
@[simp] theorem State.onLight_exitRamps : (s.onLight z f).exitRamps = s.exitRamps := rfl
@[simp] theorem State.onLight_segs : (s.onLight z f).segs = s.segs := rfl
@[simp] theorem State.onLight_bays : (s.onLight z f).bays = s.bays := rfl
@[simp] theorem State.onLight_free : (s.onLight z f).free = s.free := rfl
@[simp] theorem State.onLight_gas : (s.onLight z f).gas = s.gas := rfl
@[simp] theorem State.onLight_air : (s.onLight z f).air = s.air := rfl
@[simp] theorem State.onLight_drives : (s.onLight z f).drives = s.drives := rfl
@[simp] theorem State.onLight_vent : (s.onLight z f).vent = s.vent := rfl
@[simp] theorem State.onLight_shafts : (s.onLight z f).shafts = s.shafts := rfl
@[simp] theorem State.onLight_status : (s.onLight z f).status = s.status := rfl
@[simp] theorem State.onLight_supply : (s.onLight z f).supply = s.supply := rfl
@[simp] theorem State.onLight_smoke : (s.onLight z f).smoke = s.smoke := rfl
@[simp] theorem State.onLight_lapse : (s.onLight z f).lapse = s.lapse := rfl
@[simp] theorem State.onLight_lapseHolds : (s.onLight z f).lapseHolds = s.lapseHolds := rfl
@[simp] theorem State.onLight_holds : (s.onLight z f).holds = s.holds := rfl
@[simp] theorem State.onLight_holdPtr : (s.onLight z f).holdPtr = s.holdPtr := rfl
@[simp] theorem State.onLight_escorts : (s.onLight z f).escorts = s.escorts := rfl
@[simp] theorem State.onLight_ends : (s.onLight z f).ends = s.ends := rfl
@[simp] theorem State.onLight_signs : (s.onLight z f).signs = s.signs := rfl
@[simp] theorem State.onLight_lights : (s.onLight z f).lights = s.lights.adjust z f := rfl
@[simp] theorem State.onLight_ports : (s.onLight z f).ports = s.ports := rfl
@[simp] theorem State.onLight_notices : (s.onLight z f).notices = s.notices := rfl

end

/-! ### `State.onSign` -/

section
variable (k : Nat) (f : Sign → Sign)

@[simp] theorem State.onSign_pending : (s.onSign k f).pending = s.pending := rfl
@[simp] theorem State.onSign_resetLow : (s.onSign k f).resetLow = s.resetLow := rfl
@[simp] theorem State.onSign_part : (s.onSign k f).part = s.part := rfl
@[simp] theorem State.onSign_restarts : (s.onSign k f).restarts = s.restarts := rfl
@[simp] theorem State.onSign_rejection : (s.onSign k f).rejection = s.rejection := rfl
@[simp] theorem State.onSign_timebase : (s.onSign k f).timebase = s.timebase := rfl
@[simp] theorem State.onSign_minuteDue : (s.onSign k f).minuteDue = s.minuteDue := rfl
@[simp] theorem State.onSign_rate : (s.onSign k f).rate = s.rate := rfl
@[simp] theorem State.onSign_options : (s.onSign k f).options = s.options := rfl
@[simp] theorem State.onSign_levelCount : (s.onSign k f).levelCount = s.levelCount := rfl
@[simp] theorem State.onSign_setpoints : (s.onSign k f).setpoints = s.setpoints := rfl
@[simp] theorem State.onSign_zones : (s.onSign k f).zones = s.zones := rfl
@[simp] theorem State.onSign_lamps : (s.onSign k f).lamps = s.lamps := rfl
@[simp] theorem State.onSign_imageBus : (s.onSign k f).imageBus = s.imageBus := rfl
@[simp] theorem State.onSign_routes : (s.onSign k f).routes = s.routes := rfl
@[simp] theorem State.onSign_entryRamps : (s.onSign k f).entryRamps = s.entryRamps := rfl
@[simp] theorem State.onSign_exitRamps : (s.onSign k f).exitRamps = s.exitRamps := rfl
@[simp] theorem State.onSign_segs : (s.onSign k f).segs = s.segs := rfl
@[simp] theorem State.onSign_bays : (s.onSign k f).bays = s.bays := rfl
@[simp] theorem State.onSign_free : (s.onSign k f).free = s.free := rfl
@[simp] theorem State.onSign_gas : (s.onSign k f).gas = s.gas := rfl
@[simp] theorem State.onSign_air : (s.onSign k f).air = s.air := rfl
@[simp] theorem State.onSign_drives : (s.onSign k f).drives = s.drives := rfl
@[simp] theorem State.onSign_vent : (s.onSign k f).vent = s.vent := rfl
@[simp] theorem State.onSign_shafts : (s.onSign k f).shafts = s.shafts := rfl
@[simp] theorem State.onSign_status : (s.onSign k f).status = s.status := rfl
@[simp] theorem State.onSign_supply : (s.onSign k f).supply = s.supply := rfl
@[simp] theorem State.onSign_smoke : (s.onSign k f).smoke = s.smoke := rfl
@[simp] theorem State.onSign_lapse : (s.onSign k f).lapse = s.lapse := rfl
@[simp] theorem State.onSign_lapseHolds : (s.onSign k f).lapseHolds = s.lapseHolds := rfl
@[simp] theorem State.onSign_holds : (s.onSign k f).holds = s.holds := rfl
@[simp] theorem State.onSign_holdPtr : (s.onSign k f).holdPtr = s.holdPtr := rfl
@[simp] theorem State.onSign_escorts : (s.onSign k f).escorts = s.escorts := rfl
@[simp] theorem State.onSign_ends : (s.onSign k f).ends = s.ends := rfl
@[simp] theorem State.onSign_signs : (s.onSign k f).signs = s.signs.adjust k f := rfl
@[simp] theorem State.onSign_lights : (s.onSign k f).lights = s.lights := rfl
@[simp] theorem State.onSign_ports : (s.onSign k f).ports = s.ports := rfl
@[simp] theorem State.onSign_notices : (s.onSign k f).notices = s.notices := rfl

end

/-! ### `State.onPort` -/

section
variable (p : Port) (f : PortRecord → PortRecord)

@[simp] theorem State.onPort_pending : (s.onPort p f).pending = s.pending := rfl
@[simp] theorem State.onPort_resetLow : (s.onPort p f).resetLow = s.resetLow := rfl
@[simp] theorem State.onPort_part : (s.onPort p f).part = s.part := rfl
@[simp] theorem State.onPort_restarts : (s.onPort p f).restarts = s.restarts := rfl
@[simp] theorem State.onPort_rejection : (s.onPort p f).rejection = s.rejection := rfl
@[simp] theorem State.onPort_timebase : (s.onPort p f).timebase = s.timebase := rfl
@[simp] theorem State.onPort_minuteDue : (s.onPort p f).minuteDue = s.minuteDue := rfl
@[simp] theorem State.onPort_rate : (s.onPort p f).rate = s.rate := rfl
@[simp] theorem State.onPort_options : (s.onPort p f).options = s.options := rfl
@[simp] theorem State.onPort_levelCount : (s.onPort p f).levelCount = s.levelCount := rfl
@[simp] theorem State.onPort_setpoints : (s.onPort p f).setpoints = s.setpoints := rfl
@[simp] theorem State.onPort_zones : (s.onPort p f).zones = s.zones := rfl
@[simp] theorem State.onPort_lamps : (s.onPort p f).lamps = s.lamps := rfl
@[simp] theorem State.onPort_imageBus : (s.onPort p f).imageBus = s.imageBus := rfl
@[simp] theorem State.onPort_routes : (s.onPort p f).routes = s.routes := rfl
@[simp] theorem State.onPort_entryRamps : (s.onPort p f).entryRamps = s.entryRamps := rfl
@[simp] theorem State.onPort_exitRamps : (s.onPort p f).exitRamps = s.exitRamps := rfl
@[simp] theorem State.onPort_segs : (s.onPort p f).segs = s.segs := rfl
@[simp] theorem State.onPort_bays : (s.onPort p f).bays = s.bays := rfl
@[simp] theorem State.onPort_free : (s.onPort p f).free = s.free := rfl
@[simp] theorem State.onPort_gas : (s.onPort p f).gas = s.gas := rfl
@[simp] theorem State.onPort_air : (s.onPort p f).air = s.air := rfl
@[simp] theorem State.onPort_drives : (s.onPort p f).drives = s.drives := rfl
@[simp] theorem State.onPort_vent : (s.onPort p f).vent = s.vent := rfl
@[simp] theorem State.onPort_shafts : (s.onPort p f).shafts = s.shafts := rfl
@[simp] theorem State.onPort_status : (s.onPort p f).status = s.status := rfl
@[simp] theorem State.onPort_supply : (s.onPort p f).supply = s.supply := rfl
@[simp] theorem State.onPort_smoke : (s.onPort p f).smoke = s.smoke := rfl
@[simp] theorem State.onPort_lapse : (s.onPort p f).lapse = s.lapse := rfl
@[simp] theorem State.onPort_lapseHolds : (s.onPort p f).lapseHolds = s.lapseHolds := rfl
@[simp] theorem State.onPort_holds : (s.onPort p f).holds = s.holds := rfl
@[simp] theorem State.onPort_holdPtr : (s.onPort p f).holdPtr = s.holdPtr := rfl
@[simp] theorem State.onPort_escorts : (s.onPort p f).escorts = s.escorts := rfl
@[simp] theorem State.onPort_ends : (s.onPort p f).ends = s.ends := rfl
@[simp] theorem State.onPort_signs : (s.onPort p f).signs = s.signs := rfl
@[simp] theorem State.onPort_lights : (s.onPort p f).lights = s.lights := rfl
@[simp] theorem State.onPort_ports : (s.onPort p f).ports = s.ports.adjust p f := rfl
@[simp] theorem State.onPort_notices : (s.onPort p f).notices = s.notices := rfl

end

/-! ### `State.onNotice` -/

section
variable (p : Port) (f : NoticeRecord → NoticeRecord)

@[simp] theorem State.onNotice_pending : (s.onNotice p f).pending = s.pending := rfl
@[simp] theorem State.onNotice_resetLow : (s.onNotice p f).resetLow = s.resetLow := rfl
@[simp] theorem State.onNotice_part : (s.onNotice p f).part = s.part := rfl
@[simp] theorem State.onNotice_restarts : (s.onNotice p f).restarts = s.restarts := rfl
@[simp] theorem State.onNotice_rejection : (s.onNotice p f).rejection = s.rejection := rfl
@[simp] theorem State.onNotice_timebase : (s.onNotice p f).timebase = s.timebase := rfl
@[simp] theorem State.onNotice_minuteDue : (s.onNotice p f).minuteDue = s.minuteDue := rfl
@[simp] theorem State.onNotice_rate : (s.onNotice p f).rate = s.rate := rfl
@[simp] theorem State.onNotice_options : (s.onNotice p f).options = s.options := rfl
@[simp] theorem State.onNotice_levelCount : (s.onNotice p f).levelCount = s.levelCount := rfl
@[simp] theorem State.onNotice_setpoints : (s.onNotice p f).setpoints = s.setpoints := rfl
@[simp] theorem State.onNotice_zones : (s.onNotice p f).zones = s.zones := rfl
@[simp] theorem State.onNotice_lamps : (s.onNotice p f).lamps = s.lamps := rfl
@[simp] theorem State.onNotice_imageBus : (s.onNotice p f).imageBus = s.imageBus := rfl
@[simp] theorem State.onNotice_routes : (s.onNotice p f).routes = s.routes := rfl
@[simp] theorem State.onNotice_entryRamps : (s.onNotice p f).entryRamps = s.entryRamps := rfl
@[simp] theorem State.onNotice_exitRamps : (s.onNotice p f).exitRamps = s.exitRamps := rfl
@[simp] theorem State.onNotice_segs : (s.onNotice p f).segs = s.segs := rfl
@[simp] theorem State.onNotice_bays : (s.onNotice p f).bays = s.bays := rfl
@[simp] theorem State.onNotice_free : (s.onNotice p f).free = s.free := rfl
@[simp] theorem State.onNotice_gas : (s.onNotice p f).gas = s.gas := rfl
@[simp] theorem State.onNotice_air : (s.onNotice p f).air = s.air := rfl
@[simp] theorem State.onNotice_drives : (s.onNotice p f).drives = s.drives := rfl
@[simp] theorem State.onNotice_vent : (s.onNotice p f).vent = s.vent := rfl
@[simp] theorem State.onNotice_shafts : (s.onNotice p f).shafts = s.shafts := rfl
@[simp] theorem State.onNotice_status : (s.onNotice p f).status = s.status := rfl
@[simp] theorem State.onNotice_supply : (s.onNotice p f).supply = s.supply := rfl
@[simp] theorem State.onNotice_smoke : (s.onNotice p f).smoke = s.smoke := rfl
@[simp] theorem State.onNotice_lapse : (s.onNotice p f).lapse = s.lapse := rfl
@[simp] theorem State.onNotice_lapseHolds : (s.onNotice p f).lapseHolds = s.lapseHolds := rfl
@[simp] theorem State.onNotice_holds : (s.onNotice p f).holds = s.holds := rfl
@[simp] theorem State.onNotice_holdPtr : (s.onNotice p f).holdPtr = s.holdPtr := rfl
@[simp] theorem State.onNotice_escorts : (s.onNotice p f).escorts = s.escorts := rfl
@[simp] theorem State.onNotice_ends : (s.onNotice p f).ends = s.ends := rfl
@[simp] theorem State.onNotice_signs : (s.onNotice p f).signs = s.signs := rfl
@[simp] theorem State.onNotice_lights : (s.onNotice p f).lights = s.lights := rfl
@[simp] theorem State.onNotice_ports : (s.onNotice p f).ports = s.ports := rfl
@[simp] theorem State.onNotice_notices : (s.onNotice p f).notices = s.notices.adjust p f := rfl

end

/-! ### Notices raised -/

section
variable (c : NoticeClass) (p : Port)

@[simp] theorem State.raise_pending : (s.raise c).pending = s.pending := rfl
@[simp] theorem State.raiseFor_pending : (s.raiseFor p c).pending = s.pending := rfl
@[simp] theorem State.raise_resetLow : (s.raise c).resetLow = s.resetLow := rfl
@[simp] theorem State.raiseFor_resetLow : (s.raiseFor p c).resetLow = s.resetLow := rfl
@[simp] theorem State.raise_part : (s.raise c).part = s.part := rfl
@[simp] theorem State.raiseFor_part : (s.raiseFor p c).part = s.part := rfl
@[simp] theorem State.raise_restarts : (s.raise c).restarts = s.restarts := rfl
@[simp] theorem State.raiseFor_restarts : (s.raiseFor p c).restarts = s.restarts := rfl
@[simp] theorem State.raise_rejection : (s.raise c).rejection = s.rejection := rfl
@[simp] theorem State.raiseFor_rejection : (s.raiseFor p c).rejection = s.rejection := rfl
@[simp] theorem State.raise_timebase : (s.raise c).timebase = s.timebase := rfl
@[simp] theorem State.raiseFor_timebase : (s.raiseFor p c).timebase = s.timebase := rfl
@[simp] theorem State.raise_minuteDue : (s.raise c).minuteDue = s.minuteDue := rfl
@[simp] theorem State.raiseFor_minuteDue : (s.raiseFor p c).minuteDue = s.minuteDue := rfl
@[simp] theorem State.raise_rate : (s.raise c).rate = s.rate := rfl
@[simp] theorem State.raiseFor_rate : (s.raiseFor p c).rate = s.rate := rfl
@[simp] theorem State.raise_options : (s.raise c).options = s.options := rfl
@[simp] theorem State.raiseFor_options : (s.raiseFor p c).options = s.options := rfl
@[simp] theorem State.raise_levelCount : (s.raise c).levelCount = s.levelCount := rfl
@[simp] theorem State.raiseFor_levelCount : (s.raiseFor p c).levelCount = s.levelCount := rfl
@[simp] theorem State.raise_setpoints : (s.raise c).setpoints = s.setpoints := rfl
@[simp] theorem State.raiseFor_setpoints : (s.raiseFor p c).setpoints = s.setpoints := rfl
@[simp] theorem State.raise_zones : (s.raise c).zones = s.zones := rfl
@[simp] theorem State.raiseFor_zones : (s.raiseFor p c).zones = s.zones := rfl
@[simp] theorem State.raise_lamps : (s.raise c).lamps = s.lamps := rfl
@[simp] theorem State.raise_imageBus : (s.raise c).imageBus = s.imageBus := rfl
@[simp] theorem State.raiseFor_lamps : (s.raiseFor p c).lamps = s.lamps := rfl
@[simp] theorem State.raiseFor_imageBus : (s.raiseFor p c).imageBus = s.imageBus := rfl
@[simp] theorem State.raise_routes : (s.raise c).routes = s.routes := rfl
@[simp] theorem State.raiseFor_routes : (s.raiseFor p c).routes = s.routes := rfl
@[simp] theorem State.raise_entryRamps : (s.raise c).entryRamps = s.entryRamps := rfl
@[simp] theorem State.raiseFor_entryRamps : (s.raiseFor p c).entryRamps = s.entryRamps := rfl
@[simp] theorem State.raise_exitRamps : (s.raise c).exitRamps = s.exitRamps := rfl
@[simp] theorem State.raiseFor_exitRamps : (s.raiseFor p c).exitRamps = s.exitRamps := rfl
@[simp] theorem State.raise_segs : (s.raise c).segs = s.segs := rfl
@[simp] theorem State.raiseFor_segs : (s.raiseFor p c).segs = s.segs := rfl
@[simp] theorem State.raise_bays : (s.raise c).bays = s.bays := rfl
@[simp] theorem State.raiseFor_bays : (s.raiseFor p c).bays = s.bays := rfl
@[simp] theorem State.raise_free : (s.raise c).free = s.free := rfl
@[simp] theorem State.raiseFor_free : (s.raiseFor p c).free = s.free := rfl
@[simp] theorem State.raise_gas : (s.raise c).gas = s.gas := rfl
@[simp] theorem State.raiseFor_gas : (s.raiseFor p c).gas = s.gas := rfl
@[simp] theorem State.raise_air : (s.raise c).air = s.air := rfl
@[simp] theorem State.raiseFor_air : (s.raiseFor p c).air = s.air := rfl
@[simp] theorem State.raise_drives : (s.raise c).drives = s.drives := rfl
@[simp] theorem State.raiseFor_drives : (s.raiseFor p c).drives = s.drives := rfl
@[simp] theorem State.raise_vent : (s.raise c).vent = s.vent := rfl
@[simp] theorem State.raiseFor_vent : (s.raiseFor p c).vent = s.vent := rfl
@[simp] theorem State.raise_shafts : (s.raise c).shafts = s.shafts := rfl
@[simp] theorem State.raiseFor_shafts : (s.raiseFor p c).shafts = s.shafts := rfl
@[simp] theorem State.raise_status : (s.raise c).status = s.status := rfl
@[simp] theorem State.raiseFor_status : (s.raiseFor p c).status = s.status := rfl
@[simp] theorem State.raise_supply : (s.raise c).supply = s.supply := rfl
@[simp] theorem State.raiseFor_supply : (s.raiseFor p c).supply = s.supply := rfl
@[simp] theorem State.raise_smoke : (s.raise c).smoke = s.smoke := rfl
@[simp] theorem State.raiseFor_smoke : (s.raiseFor p c).smoke = s.smoke := rfl
@[simp] theorem State.raise_lapse : (s.raise c).lapse = s.lapse := rfl
@[simp] theorem State.raiseFor_lapse : (s.raiseFor p c).lapse = s.lapse := rfl
@[simp] theorem State.raise_lapseHolds : (s.raise c).lapseHolds = s.lapseHolds := rfl
@[simp] theorem State.raiseFor_lapseHolds : (s.raiseFor p c).lapseHolds = s.lapseHolds := rfl
@[simp] theorem State.raise_holds : (s.raise c).holds = s.holds := rfl
@[simp] theorem State.raiseFor_holds : (s.raiseFor p c).holds = s.holds := rfl
@[simp] theorem State.raise_holdPtr : (s.raise c).holdPtr = s.holdPtr := rfl
@[simp] theorem State.raiseFor_holdPtr : (s.raiseFor p c).holdPtr = s.holdPtr := rfl
@[simp] theorem State.raise_escorts : (s.raise c).escorts = s.escorts := rfl
@[simp] theorem State.raiseFor_escorts : (s.raiseFor p c).escorts = s.escorts := rfl
@[simp] theorem State.raise_ends : (s.raise c).ends = s.ends := rfl
@[simp] theorem State.raiseFor_ends : (s.raiseFor p c).ends = s.ends := rfl
@[simp] theorem State.raise_signs : (s.raise c).signs = s.signs := rfl
@[simp] theorem State.raiseFor_signs : (s.raiseFor p c).signs = s.signs := rfl
@[simp] theorem State.raise_lights : (s.raise c).lights = s.lights := rfl
@[simp] theorem State.raiseFor_lights : (s.raiseFor p c).lights = s.lights := rfl
@[simp] theorem State.raise_ports : (s.raise c).ports = s.ports := rfl
@[simp] theorem State.raiseFor_ports : (s.raiseFor p c).ports = s.ports := rfl
@[simp] theorem State.raise_notices : (s.raise c).notices = s.notices.each (·.raise c) := rfl
@[simp] theorem State.raiseFor_notices : (s.raiseFor p c).notices = s.notices.adjust p (·.raise c) := rfl

end

end Sys2Proof.Machine
end

