-- ==== Sys2Proof/Laws/Does.lean ====
section
/-! SUPPORT. What an operation can do, said once: the fields it may touch, and the forms it keeps. Each
shared operation has one lemma of this shape, in Laws/Blocks.lean and Laws/Requests.lean. -/

namespace Sys2Proof.Machine

/-- The kinds of either. -/
def Touch.join (a b : Touch) : Touch :=
  { segs := a.segs || b.segs, engine := a.engine || b.engine, bays := a.bays || b.bays, free := a.free || b.free, gas := a.gas || b.gas, air := a.air || b.air, drives := a.drives || b.drives, vent := a.vent || b.vent, shafts := a.shafts || b.shafts, status := a.status || b.status, holds := a.holds || b.holds, holdPtr := a.holdPtr || b.holdPtr, escorts := a.escorts || b.escorts, ends := a.ends || b.ends, signs := a.signs || b.signs, lights := a.lights || b.lights, notices := a.notices || b.notices, part := a.part || b.part, supply := a.supply || b.supply, smoke := a.smoke || b.smoke, lapse := a.lapse || b.lapse, clock := a.clock || b.clock, ports := a.ports || b.ports, tables := a.tables || b.tables, setpoints := a.setpoints || b.setpoints, restarts := a.restarts || b.restarts }

/-- Whether every kind of `a` is a kind of `b`. -/
def Touch.within (a b : Touch) : Bool :=
  (!a.segs || b.segs) && (!a.engine || b.engine) && (!a.bays || b.bays) && (!a.free || b.free) && (!a.gas || b.gas) && (!a.air || b.air) && (!a.drives || b.drives) && (!a.vent || b.vent) && (!a.shafts || b.shafts) && (!a.status || b.status) && (!a.holds || b.holds) && (!a.holdPtr || b.holdPtr) && (!a.escorts || b.escorts) && (!a.ends || b.ends) && (!a.signs || b.signs) && (!a.lights || b.lights) && (!a.notices || b.notices) && (!a.part || b.part) && (!a.supply || b.supply) && (!a.smoke || b.smoke) && (!a.lapse || b.lapse) && (!a.clock || b.clock) && (!a.ports || b.ports) && (!a.tables || b.tables) && (!a.setpoints || b.setpoints) && (!a.restarts || b.restarts)

theorem Keeps.refl (k : Touch) (s : State) : Keeps k s s := by constructor <;> intros <;> rfl

theorem Keeps.trans {k : Touch} {s t u : State} (h : Keeps k s t) (g : Keeps k t u) : Keeps k s u := by
  constructor <;> intros
  · rename_i w; exact (g.segs w).trans (h.segs w)
  · rename_i w; exact (g.shape w).trans (h.shape w)
  · rename_i w; exact (g.bays w).trans (h.bays w)
  · rename_i w; exact (g.free w).trans (h.free w)
  · rename_i w; exact (g.gas w).trans (h.gas w)
  · rename_i w; exact (g.air w).trans (h.air w)
  · rename_i w; exact (g.drives w).trans (h.drives w)
  · rename_i w; exact (g.vent w).trans (h.vent w)
  · rename_i w; exact (g.shafts w).trans (h.shafts w)
  · rename_i w; exact (g.status w).trans (h.status w)
  · rename_i w; exact (g.holds w).trans (h.holds w)
  · rename_i w; exact (g.holdPtr w).trans (h.holdPtr w)
  · rename_i w; exact (g.escorts w).trans (h.escorts w)
  · rename_i w; exact (g.ends w).trans (h.ends w)
  · rename_i w; exact (g.signs w).trans (h.signs w)
  · rename_i w; exact (g.lights w).trans (h.lights w)
  · rename_i w; exact (g.notices w).trans (h.notices w)
  · rename_i w; exact (g.part w).trans (h.part w)
  · rename_i w; exact (g.supply w).trans (h.supply w)
  · rename_i w; exact (g.smoke w).trans (h.smoke w)
  · rename_i w; exact (g.lapse w).trans (h.lapse w)
  · rename_i w; exact (g.lapseHolds w).trans (h.lapseHolds w)
  · rename_i w; exact (g.timebase w).trans (h.timebase w)
  · rename_i w; exact (g.minuteDue w).trans (h.minuteDue w)
  · rename_i w; exact (g.ports w).trans (h.ports w)
  · rename_i w; exact (g.zones w).trans (h.zones w)
  · rename_i w; exact (g.routes w).trans (h.routes w)
  · rename_i w; exact (g.entryRamps w).trans (h.entryRamps w)
  · rename_i w; exact (g.exitRamps w).trans (h.exitRamps w)
  · rename_i w; exact (g.setpoints w).trans (h.setpoints w)
  · rename_i w; exact (g.restarts w).trans (h.restarts w)
  · exact g.pending.trans h.pending
  · exact g.resetLow.trans h.resetLow
  · exact g.rejection.trans h.rejection
  · exact g.rate.trans h.rate
  · exact g.options.trans h.options
  · exact g.levelCount.trans h.levelCount
  · exact g.lamps.trans h.lamps
  · exact g.imageBus.trans h.imageBus

theorem Keeps.mono {a b : Touch} {s t : State} (h : Keeps a s t) (w : a.within b = true) : Keeps b s t := by
  simp only [Touch.within, Bool.and_eq_true, Bool.or_eq_true, Bool.not_eq_true'] at w
  obtain ⟨⟨⟨⟨⟨⟨⟨⟨⟨⟨⟨⟨⟨⟨⟨⟨⟨⟨⟨⟨⟨⟨⟨⟨⟨wsegs, wengine⟩, wbays⟩, wfree⟩, wgas⟩, wair⟩, wdrives⟩, wvent⟩, wshafts⟩, wstatus⟩, wholds⟩, wholdPtr⟩, wescorts⟩, wends⟩, wsigns⟩, wlights⟩, wnotices⟩, wpart⟩, wsupply⟩, wsmoke⟩, wlapse⟩, wclock⟩, wports⟩, wtables⟩, wsetpoints⟩, wrestarts⟩ := w
  constructor
  · intro hb; exact h.segs (wsegs.resolve_right (by simp [hb]))
  · intro hb; exact h.shape (wengine.resolve_right (by simp [hb]))
  · intro hb; exact h.bays (wbays.resolve_right (by simp [hb]))
  · intro hb; exact h.free (wfree.resolve_right (by simp [hb]))
  · intro hb; exact h.gas (wgas.resolve_right (by simp [hb]))
  · intro hb; exact h.air (wair.resolve_right (by simp [hb]))
  · intro hb; exact h.drives (wdrives.resolve_right (by simp [hb]))
  · intro hb; exact h.vent (wvent.resolve_right (by simp [hb]))
  · intro hb; exact h.shafts (wshafts.resolve_right (by simp [hb]))
  · intro hb; exact h.status (wstatus.resolve_right (by simp [hb]))
  · intro hb; exact h.holds (wholds.resolve_right (by simp [hb]))
  · intro hb; exact h.holdPtr (wholdPtr.resolve_right (by simp [hb]))
  · intro hb; exact h.escorts (wescorts.resolve_right (by simp [hb]))
  · intro hb; exact h.ends (wends.resolve_right (by simp [hb]))
  · intro hb; exact h.signs (wsigns.resolve_right (by simp [hb]))
  · intro hb; exact h.lights (wlights.resolve_right (by simp [hb]))
  · intro hb; exact h.notices (wnotices.resolve_right (by simp [hb]))
  · intro hb; exact h.part (wpart.resolve_right (by simp [hb]))
  · intro hb; exact h.supply (wsupply.resolve_right (by simp [hb]))
  · intro hb; exact h.smoke (wsmoke.resolve_right (by simp [hb]))
  · intro hb; exact h.lapse (wlapse.resolve_right (by simp [hb]))
  · intro hb; exact h.lapseHolds (wlapse.resolve_right (by simp [hb]))
  · intro hb; exact h.timebase (wclock.resolve_right (by simp [hb]))
  · intro hb; exact h.minuteDue (wclock.resolve_right (by simp [hb]))
  · intro hb; exact h.ports (wports.resolve_right (by simp [hb]))
  · intro hb; exact h.zones (wtables.resolve_right (by simp [hb]))
  · intro hb; exact h.routes (wtables.resolve_right (by simp [hb]))
  · intro hb; exact h.entryRamps (wtables.resolve_right (by simp [hb]))
  · intro hb; exact h.exitRamps (wtables.resolve_right (by simp [hb]))
  · intro hb; exact h.setpoints (wsetpoints.resolve_right (by simp [hb]))
  · intro hb; exact h.restarts (wrestarts.resolve_right (by simp [hb]))
  · exact h.pending
  · exact h.resetLow
  · exact h.rejection
  · exact h.rate
  · exact h.options
  · exact h.levelCount
  · exact h.lamps
  · exact h.imageBus

/-- What each drive drives, by its number; no operation changes it (R3). -/
def duties (t : Table Drive) : Table DriveDuty := t.map fun e => (e.1, e.2.duty)

theorem look_duties (t : Table Drive) (d : Nat) : (duties t).look d = (t.look d).map Drive.duty := by
  induction t with
  | nil => rfl
  | cons e t ih =>
    obtain ⟨j, x⟩ := e
    simp only [duties, List.map_cons, Table.look] at ih ⊢
    split
    · rfl
    · exact ih

theorem duties_adjust (t : Table Drive) (k : Nat) (f : Drive → Drive) (hf : ∀ x, (f x).duty = x.duty) :
    duties (t.adjust k f) = duties t := by
  induction t with
  | nil => rfl
  | cons e t ih =>
    obtain ⟨j, x⟩ := e
    simp only [Table.adjust]
    split
    · simp [duties, hf]
    · simp only [duties, List.map_cons] at ih ⊢; rw [ih]

/-- Tables of drives with the same duties have a JET drive for the same zones. -/
theorem oneJet_of_duties {t u : Table Drive} (h : duties u = duties t) (j : oneJet t) : oneJet u := by
  have key : ∀ d x z, u.look d = some x → x.duty = .jet z → ∃ y, t.look d = some y ∧ y.duty = .jet z := by
    intro d x z hx hz
    have := (look_duties t d).symm.trans ((congrArg (fun q => Table.look q d) h.symm).trans (look_duties u d))
    simp only [hx, Option.map_some, Option.map_eq_some_iff] at this
    obtain ⟨y, hy, e⟩ := this
    exact ⟨y, hy, e.trans hz⟩
  intro d d' x x' z hx hx' hz hz'
  obtain ⟨y, hy, ey⟩ := key d x z hx hz
  obtain ⟨y', hy', ey'⟩ := key d' x' z hx' hz'
  exact j d d' y y' z hy hy' ey ey'

/-- What an operation does: the fields outside the touched kinds are as they were, and each form the
part keeps is kept. -/
structure Does (k : Touch) (s t : State) : Prop where
  keeps  : Keeps k s t
  lines  : s.linesSound = true → t.linesSound = true
  counts : s.countsSound = true → t.countsSound = true
  ends   : s.endsSound = true → t.endsSound = true
  rising : s.tablesRising = true → t.tablesRising = true
  duties : duties t.drives = duties s.drives

theorem Does.refl {k : Touch} (s : State) : Does k s s := ⟨.refl k s, id, id, id, id, rfl⟩

theorem Does.trans {k : Touch} {s t u : State} (h : Does k s t) (g : Does k t u) : Does k s u :=
  ⟨h.keeps.trans g.keeps, g.lines ∘ h.lines, g.counts ∘ h.counts, g.ends ∘ h.ends, g.rising ∘ h.rising,
    g.duties.trans h.duties⟩

theorem Does.mono {a b : Touch} {s t : State} (h : Does a s t) (w : a.within b = true) : Does b s t :=
  ⟨h.keeps.mono w, h.lines, h.counts, h.ends, h.rising, h.duties⟩

theorem Does.ite {k : Touch} {c : Prop} [Decidable c] {s t u : State} (h : c → Does k s t) (g : ¬ c → Does k s u) :
    Does k s (if c then t else u) := by
  split
  · exact h ‹_›
  · exact g ‹_›

theorem Does.forAll {α : Type} {k : Touch} {f : State → α → State} (h : ∀ t x, Does k t (f t x)) (s : State)
    (xs : List α) : Does k s (s.forAll xs f) := by
  induction xs generalizing s with
  | nil => exact .refl s
  | cons x xs ih => exact (h s x).trans (ih (f s x))

/-! ### One record changed -/

/-- A change of fields that no kept form reads. -/
theorem Does.of_plain {k : Touch} {s t : State} (h : Keeps k s t) (hn : t.notices = s.notices) (hb : t.bays = s.bays)
    (hf : t.free = s.free) (he : t.ends = s.ends) (hr : s.tablesRising = true → t.tablesRising = true)
    (hd : Machine.duties t.drives = Machine.duties s.drives := by rfl) : Does k s t :=
  ⟨h, by simp only [State.linesSound, hn]; exact id, by simp only [State.countsSound, hb, hf]; exact id,
   by simp only [State.endsSound, he]; exact id, hr, hd⟩

/-- The touches of one kind of record. -/
def Touch.segsOnly : Touch := { segs := true }
def Touch.engineOnly : Touch := { segs := true, engine := true }
def Touch.gasOnly : Touch := { gas := true }
def Touch.airOnly : Touch := { air := true }
def Touch.drivesOnly : Touch := { drives := true }
def Touch.ventOnly : Touch := { vent := true }
def Touch.shaftsOnly : Touch := { shafts := true }
def Touch.statusOnly : Touch := { status := true }
def Touch.lightsOnly : Touch := { lights := true }
def Touch.signsOnly : Touch := { signs := true }
def Touch.portsOnly : Touch := { ports := true }
def Touch.noticesOnly : Touch := { notices := true }

theorem nodesRising_adjust (t : Table Segment) (i : Nat) (f : Segment → Segment)
    (hf : ∀ g, g.nodes.rising = true → (f g).nodes.rising = true)
    (h : (t.all fun e => e.2.nodes.rising) = true) : ((t.adjust i f).all fun e => e.2.nodes.rising) = true := by
  induction t with
  | nil => rfl
  | cons e t ih =>
    obtain ⟨j, g⟩ := e
    simp only [List.all_cons, Bool.and_eq_true] at h
    simp only [Table.adjust]
    split
    · simp [h.2, hf _ h.1]
    · simp [h.1, ih h.2]

theorem does_onSeg (s : State) (i : Nat) (f : Segment → Segment)
    (hf : ∀ g, g.nodes.rising = true → (f g).nodes.rising = true) : Does .engineOnly s (s.onSeg i f) := by
  refine .of_plain ?_ rfl rfl rfl rfl ?_
  · constructor <;> intros <;> first | rfl | contradiction
  · intro h
    simp only [State.tablesRising, State.nodesRising, Bool.and_eq_true, State.onSeg_segs, Table.rising_adjust] at h ⊢
    obtain ⟨⟨⟨⟨⟨⟨⟨⟨⟨⟨⟨⟨⟨⟨⟨⟨⟨⟨h1, h2⟩, h3⟩, h4⟩, h5⟩, h6⟩, h7⟩, h8⟩, h9⟩, h10⟩, h11⟩, h12⟩, h13⟩, h14⟩, h15⟩, h16⟩,
      h17⟩, h18⟩, h19⟩ := h
    exact ⟨⟨⟨⟨⟨⟨⟨⟨⟨⟨⟨⟨⟨⟨⟨⟨⟨⟨h1, h2⟩, h3⟩, h4⟩, h5⟩, h6⟩, nodesRising_adjust _ _ _ hf h7⟩, h8⟩, h9⟩, h10⟩, h11⟩, h12⟩,
      h13⟩, h14⟩, h15⟩, h16⟩, h17⟩, h18⟩, h19⟩

theorem does_onGas (s : State) (k : Nat) (f : GasChannel → GasChannel) : Does .gasOnly s (s.onGas k f) := by
  refine .of_plain ?_ rfl rfl rfl rfl ?_
  · constructor <;> intros <;> first | rfl | contradiction
  · intro h; simpa [State.tablesRising, State.nodesRising] using h

theorem does_onAir (s : State) (k : Nat) (f : AirZone → AirZone) : Does .airOnly s (s.onAir k f) := by
  refine .of_plain ?_ rfl rfl rfl rfl ?_
  · constructor <;> intros <;> first | rfl | contradiction
  · intro h; simpa [State.tablesRising, State.nodesRising] using h

theorem does_onDrive (s : State) (k : Nat) (f : Drive → Drive) (hf : ∀ x, (f x).duty = x.duty) :
    Does .drivesOnly s (s.onDrive k f) := by
  refine .of_plain ?_ rfl rfl rfl rfl ?_ (duties_adjust _ _ _ hf)
  · constructor <;> intros <;> first | rfl | contradiction
  · intro h; simpa [State.tablesRising, State.nodesRising] using h

theorem does_onVent (s : State) (k : Nat) (f : VentZone → VentZone) : Does .ventOnly s (s.onVent k f) := by
  refine .of_plain ?_ rfl rfl rfl rfl ?_
  · constructor <;> intros <;> first | rfl | contradiction
  · intro h; simpa [State.tablesRising, State.nodesRising] using h

theorem does_onShaft (s : State) (k : Nat) (f : Shaft → Shaft) : Does .shaftsOnly s (s.onShaft k f) := by
  refine .of_plain ?_ rfl rfl rfl rfl ?_
  · constructor <;> intros <;> first | rfl | contradiction
  · intro h; simpa [State.tablesRising, State.nodesRising] using h

theorem does_onStatus (s : State) (k : Nat) (f : ZoneStatus → ZoneStatus) : Does .statusOnly s (s.onStatus k f) := by
  refine .of_plain ?_ rfl rfl rfl rfl ?_
  · constructor <;> intros <;> first | rfl | contradiction
  · intro h; simpa [State.tablesRising, State.nodesRising] using h

theorem does_onLight (s : State) (k : Nat) (f : LightZone → LightZone) : Does .lightsOnly s (s.onLight k f) := by
  refine .of_plain ?_ rfl rfl rfl rfl ?_
  · constructor <;> intros <;> first | rfl | contradiction
  · intro h; simpa [State.tablesRising, State.nodesRising] using h

theorem does_onSign (s : State) (k : Nat) (f : Sign → Sign) : Does .signsOnly s (s.onSign k f) := by
  refine .of_plain ?_ rfl rfl rfl rfl ?_
  · constructor <;> intros <;> first | rfl | contradiction
  · intro h; simpa [State.tablesRising, State.nodesRising] using h

theorem does_onPort (s : State) (k : Port) (f : PortRecord → PortRecord) : Does .portsOnly s (s.onPort k f) := by
  refine .of_plain ?_ rfl rfl rfl rfl ?_
  · constructor <;> intros <;> first | rfl | contradiction
  · intro h; simpa [State.tablesRising, State.nodesRising] using h

/-! ### Notices -/

/-- The line takes no part in what qualifies. -/
theorem topQualifying_line (r : NoticeRecord) (b : Bool) : topQualifying { r with line := b } = topQualifying r := rfl

theorem NoticeRecord.sound_reevaluate (r : NoticeRecord) : r.reevaluate.sound = true :=
  beq_self_eq_true (topQualifying r).isSome

theorem NoticeRecord.sound_raise (c : NoticeClass) (r : NoticeRecord) (h : r.sound = true) :
    (r.raise c).sound = true := by
  simp only [NoticeRecord.raise]
  split
  · exact NoticeRecord.sound_reevaluate _
  · exact h

/-- A change of notice records that keeps each line following its sets. -/
theorem does_notices (s : State) (q : Quad NoticeRecord)
    (h : s.linesSound = true → ∀ p, (q.at p).sound = true) : Does .noticesOnly s { s with notices := q } := by
  refine ⟨?_, ?_, id, id, id, rfl⟩
  · constructor <;> intros <;> first | rfl | contradiction
  · intro hs; exact (Quad.all_iff _ _).2 (h hs)

theorem linesSound_at (s : State) (h : s.linesSound = true) (p : Port) : (s.notices.at p).sound = true :=
  (Quad.all_iff _ _).1 h p

theorem does_onNotice (s : State) (p : Port) (f : NoticeRecord → NoticeRecord)
    (hf : ∀ r, r.sound = true → (f r).sound = true) : Does .noticesOnly s (s.onNotice p f) :=
  does_notices s _ fun h r => by
    rw [Quad.at_adjust]
    split
    · exact hf _ (linesSound_at s h r)
    · exact linesSound_at s h r

theorem does_raise (s : State) (c : NoticeClass) : Does .noticesOnly s (s.raise c) :=
  does_notices s _ fun h p => by simpa using NoticeRecord.sound_raise c _ (linesSound_at s h p)

theorem does_raiseFor (s : State) (p : Port) (c : NoticeClass) : Does .noticesOnly s (s.raiseFor p c) :=
  does_onNotice s p _ fun r h => NoticeRecord.sound_raise c r h

end Sys2Proof.Machine
end

