-- ==== Sys2Proof/Laws/Bays.lean ====
section
/-! SUPPORT. What the sign unit, the lighting unit and the bay table's operations do. -/

namespace Sys2Proof.Machine

/-- Close a goal that only asks that one set of kinds lies within another. -/
theorem Touch.within_self (a : Touch) : a.within a = true := by simp [Touch.within]

/-! ### Node commands -/

/-- A change of one segment that leaves its shape. -/
theorem each_adjust_same {α β : Type} (t : Table α) (i : Nat) (f : α → α) (g : Nat → α → β)
    (h : ∀ k a, g k (f a) = g k a) : (t.adjust i f).map (fun e => (e.1, g e.1 e.2)) = t.map fun e => (e.1, g e.1 e.2) := by
  induction t with
  | nil => rfl
  | cons e t ih =>
    obtain ⟨j, v⟩ := e
    simp only [Table.adjust]
    split
    · simp [h]
    · simp [ih]

theorem fieldShape_command (s : State) (i a : Nat) (v : Setting) : (s.command i a v).fieldShape = s.fieldShape := by
  refine each_adjust_same s.segs i (fun g => { g with nodes := g.nodes.adjust a fun n => { n with commanded := some v } })
    (fun _ g => { g with nodes := g.nodes.each fun _ n => n.uncommanded }) fun k g => ?_
  have := each_adjust_same g.nodes a (fun n => { n with commanded := some v }) (fun _ n => n.uncommanded) fun _ _ => rfl
  simp only [Table.each, this]

theorem does_command (s : State) (i a : Nat) (v : Setting) : Does .segsOnly s (s.command i a v) := by
  have h := does_onSeg s i (fun g => { g with nodes := g.nodes.adjust a fun n => { n with commanded := some v } })
    fun g h => by simpa using h
  refine ⟨?_, h.lines, h.counts, h.ends, h.rising, h.duties⟩
  have hs := fieldShape_command s i a v
  constructor <;> intros <;> first | rfl | exact hs | contradiction

/-! ### Signs -/

/-- What the sign unit touches. -/
def Touch.sign : Touch := { segs := true, signs := true }

theorem does_paceSign (s : State) (k : Nat) : Does .sign s (s.paceSign k) := by
  unfold State.paceSign
  split
  · exact .refl s
  · split
    · exact .refl s
    · exact .ite (fun _ => .refl s) fun _ => (does_command _ _ _ _).mono rfl

theorem does_retarget (s : State) (k : Nat) : Does .sign s (s.retarget k) := by
  unfold State.retarget
  split
  · exact .refl s
  · exact ((does_onSign s k _).mono rfl).trans (does_paceSign _ k)

theorem does_retargetZones (s : State) (zs : List Nat) : Does .sign s (s.retargetZones zs) :=
  .forAll (fun t k => does_retarget t k) s _

theorem does_retargetAll (s : State) : Does .sign s s.retargetAll := .forAll (fun t k => does_retarget t k) s _

theorem does_signs_each (s : State) (f : Nat → Sign → Sign) :
    Does .signsOnly s { s with signs := s.signs.each f } := by
  refine .of_plain ?_ rfl rfl rfl rfl ?_
  · constructor <;> intros <;> first | rfl | contradiction
  · intro h; simpa [State.tablesRising, State.nodesRising] using h

theorem does_displaySent (s : State) (i a : Nat) (d : Display) : Does .signsOnly s (s.displaySent i a d) :=
  does_signs_each s _

theorem does_displayShown (s : State) (i a : Nat) (d : Display) : Does .signsOnly s (s.displayShown i a d) :=
  does_signs_each s _

theorem does_signNodeChange (s : State) (i a : Nat) (new : NodeState) :
    Does .signsOnly s (s.signNodeChange i a new) :=
  .ite (fun _ => does_signs_each s _) fun _ => .refl s

theorem does_pacingEnd (s : State) (k : Nat) : Does .sign s (s.pacingEnd k) := by
  unfold State.pacingEnd
  split
  · exact .refl s
  · split
    · exact .refl s
    · exact ((does_onSign s k _).mono rfl).trans (does_paceSign _ k)

/-! ### The hand-over of free counts -/

/-- What the hand-over of free counts touches. -/
def Touch.handed : Touch := { segs := true, signs := true, notices := true }

theorem NoticeRecord.sound_totalChanged (z n : Nat) (r : NoticeRecord) (h : r.sound = true) :
    (r.totalChanged z n).sound = true := by
  unfold NoticeRecord.totalChanged
  split
  · exact h
  · split
    · exact h
    · split
      · exact h
      · exact NoticeRecord.sound_raise _ r h

theorem does_handZone (b s : State) (z : Nat) : Does .handed s (State.handZone b s z) := by
  unfold State.handZone
  refine .ite (fun _ => .refl s) fun _ => ?_
  refine .ite (fun _ => (does_retargetZones s [z]).mono rfl) fun _ => ?_
  refine ((does_retargetZones s [z]).mono rfl).trans ((does_notices _ _ fun h p => ?_).mono rfl)
  simpa using NoticeRecord.sound_totalChanged _ _ _ (linesSound_at _ h p)

theorem does_handCounts (b s : State) : Does .handed s (State.handCounts b s) :=
  .forAll (fun t z => does_handZone b t z) s _

/-- An event that changed no free count hands nothing over. -/
theorem handCounts_same (b s : State) (h : ∀ z, b.freeOf z = s.freeOf z) : State.handCounts b s = s := by
  have key : ∀ xs : List Nat, State.forAll s xs (State.handZone b) = s := by
    intro xs
    induction xs with
    | nil => rfl
    | cons z zs ih =>
      have hz : State.handZone b s z = s := by simp [State.handZone, h z]
      show State.forAll (State.handZone b s z) zs _ = s
      rw [hz]; exact ih
  exact key _

/-! ### Lights -/

/-- What the lighting unit touches. -/
def Touch.light : Touch := { segs := true, lights := true }

theorem does_writeLamp (s : State) (z level : Nat) : Does .segsOnly s (s.writeLamp z level) := by
  unfold State.writeLamp
  split
  · exact does_command _ _ _ _
  · exact .refl s

theorem does_relight (s : State) (z : Nat) : Does .light s (s.relight z) := by
  unfold State.relight
  split
  · exact .refl s
  · exact ((does_onLight s z _).mono rfl).trans ((does_writeLamp _ _ _).mono rfl)

theorem does_relightAll (s : State) : Does .light s s.relightAll := .forAll (fun t z => does_relight t z) s _

theorem does_movement (s : State) (z : Nat) : Does .light s (s.movement z) :=
  ((does_onLight s z _).mono rfl).trans (does_relight _ z)

theorem does_escortHanded (s : State) (z n : Nat) : Does .light s (s.escortHanded z n) :=
  ((does_onLight s z _).mono rfl).trans (does_relight _ z)

theorem does_activeReached (s : State) (z : Nat) : Does .light s (s.activeReached z) := by
  unfold State.activeReached
  split
  · exact .refl s
  · split
    · exact .ite (fun _ => ((does_onLight s z _).mono rfl).trans (does_relight _ z)) fun _ => .refl s
    · exact .refl s

theorem does_standbyReached (s : State) (z : Nat) : Does .light s (s.standbyReached z) := by
  unfold State.standbyReached
  split
  · exact .refl s
  · split
    · exact .ite (fun _ => ((does_onLight s z _).mono rfl).trans (does_relight _ z)) fun _ => .refl s
    · exact .refl s

/-- What a lamp report touches. -/
def Touch.luminaire : Touch := { lights := true, notices := true }

theorem does_luminaires (s : State) (z n : Nat) : Does .luminaire s (s.luminaires z n) := by
  unfold State.luminaires
  split
  · exact .refl s
  · exact .ite (fun _ => ((does_onLight s z _).mono rfl).trans ((does_raise _ _).mono rfl))
      fun _ => (does_onLight s z _).mono rfl

/-! ### Bays and free counts -/

theorem countFree_adjust_other (t : Table Bay) (b : Nat) (f : Bay → Bay) (z : Nat) (k : BayKind)
    (hf : ∀ r, (f r).zone = r.zone) (h : ∀ r, t.look b = some r → r.zone ≠ z) :
    countFree (t.adjust b f) z k = countFree t z k := by
  induction t with
  | nil => rfl
  | cons e t ih =>
    obtain ⟨j, r⟩ := e
    simp only [Table.adjust, Table.look] at h ⊢
    by_cases hj : j = b
    · simp only [hj, if_true] at h ⊢
      have hz := h r rfl
      simp [countFree, hf, hz]
    · simp only [hj, if_false] at h ⊢
      have := ih h
      simp only [countFree, List.filter_cons] at this ⊢
      split <;> simp_all

theorem countsOf_adjust_other (t : Table Bay) (b : Nat) (f : Bay → Bay) (z : Nat)
    (hf : ∀ r, (f r).zone = r.zone) (h : ∀ r, t.look b = some r → r.zone ≠ z) :
    countsOf (t.adjust b f) z = countsOf t z := by
  simp only [countsOf, countFree_adjust_other t b f z _ hf h]

theorem countsSound_iff (s : State) : s.countsSound = true ↔ ∀ e ∈ s.free, e.2 = countsOf s.bays e.1 := by
  simp [State.countsSound]

/-- What a change of a bay record touches. -/
def Touch.bay : Touch := { bays := true, free := true }

theorem does_writeBay (s : State) (b : Nat) (f : Bay → Bay) (hf : ∀ r, (f r).zone = r.zone) :
    Does .bay s (s.writeBay b f) := by
  unfold State.writeBay
  split
  · exact .refl s
  · rename_i r hr
    refine ⟨?_, id, ?_, id, ?_, rfl⟩
    · constructor <;> intros <;> first | rfl | contradiction
    · rw [countsSound_iff, countsSound_iff]
      intro h e he
      have he' : e ∈ s.free.each fun k c => if k = r.zone then countsOf (s.bays.adjust b f) r.zone else c := he
      simp only [Table.each, List.mem_map] at he'
      obtain ⟨d, hd, rfl⟩ := he'
      show (if d.1 = r.zone then _ else d.2) = countsOf (s.bays.adjust b f) d.1
      split
      · rename_i hz; rw [hz]
      · rename_i hz
        rw [countsOf_adjust_other _ _ _ _ hf (fun r' hr' => ?_)]
        · exact h d hd
        · rw [hr] at hr'; cases hr'; exact fun hc => hz hc.symm
    · intro h; simpa [State.tablesRising, State.nodesRising, State.recount, State.onBay] using h

/-! ### The ending of a hold -/

/-- What the ending of holds touches. -/
def Touch.holdEnd : Touch :=
  { segs := true, bays := true, free := true, holds := true, escorts := true, ends := true, lights := true,
    notices := true }

theorem does_escorts (s : State) (z : Nat) (f : Nat → Nat) :
    Does { escorts := true } s { s with escorts := s.escorts.adjust z f } := by
  refine .of_plain ?_ rfl rfl rfl rfl ?_
  · constructor <;> intros <;> first | rfl | contradiction
  · intro h; simpa [State.tablesRising, State.nodesRising] using h

theorem does_lowerEscort (s : State) (z : Nat) : Does { escorts := true } s (s.lowerEscort z) := does_escorts s z _

theorem does_escortEnd (s : State) (z : Nat) : Does .light s (s.escortEnd z) :=
  (does_escortHanded s z _).trans (does_movement _ z)

theorem does_raiseEscort (s : State) (z : Nat) : Does { segs := true, lights := true, escorts := true } s (s.raiseEscort z) :=
  ((does_escorts s z _).mono rfl).trans ((does_escortHanded _ z _).mono rfl)

theorem does_removeHold (s : State) (n : Nat) : Does { holds := true } s { s with holds := s.holds.remove n } := by
  refine .of_plain ?_ rfl rfl rfl rfl ?_
  · constructor <;> intros <;> first | rfl | contradiction
  · intro h
    simp only [State.tablesRising, Bool.and_eq_true] at h ⊢
    simp only [State.nodesRising] at h ⊢
    simp [h, Table.rising_remove]

theorem EndList.append_length (l : EndList) (e : EndEntry) (h : l.entries.length ≤ 16) :
    (l.append e).entries.length ≤ 16 := by
  simp only [EndList.append]
  split <;> simp <;> omega

theorem does_appendEnd (s : State) (p : Port) (e : EndEntry) :
    Does { ends := true } s { s with ends := s.ends.adjust p fun l => l.append e } := by
  refine ⟨?_, id, id, ?_, id, rfl⟩
  · constructor <;> intros <;> first | rfl | contradiction
  · simp only [State.endsSound, Quad.all_iff, decide_eq_true_eq]
    intro h r
    rw [Quad.at_adjust]
    split
    · exact EndList.append_length _ _ (h r)
    · exact h r

theorem does_endHold (s : State) (n : Nat) (c : EndCause) : Does .holdEnd s (s.endHold n c) := by
  unfold State.endHold
  split
  · exact .refl s
  · rename_i h _
    dsimp only
    refine Does.trans ?_ ((does_raiseFor _ _ _).mono rfl)
    refine Does.trans ?_ ((does_appendEnd _ _ _).mono rfl)
    refine Does.trans ?_ ((Does.forAll (fun t z => does_escortEnd t z) _ h.route).mono rfl)
    refine Does.trans ?_ ((Does.forAll (fun t z => does_lowerEscort t z) _ h.route).mono rfl)
    refine Does.trans ?_ ((does_writeBay _ h.bay _ (by intro _; rfl)).mono rfl)
    exact (does_removeHold s n).mono rfl

theorem does_endHolds (s : State) (w : Hold → Bool) (c : EndCause) : Does .holdEnd s (s.endHolds w c) :=
  .forAll (fun t n => does_endHold t n c) s _

theorem does_endLostHolds (s : State) : Does .holdEnd s s.endLostHolds := does_endHolds s _ _

/-! ### Reports, node changes and settles -/

theorem Bay.zone_report (now settle : Nat) (v : RawValue) (b : Bay) : (b.report now settle v).zone = b.zone := by
  unfold Bay.report
  cases b.occ <;> cases v <;> rfl

theorem does_reportBay (slots : List RawValue) (s : State) (b : Nat) : Does .bay s (State.reportBay slots s b) := by
  unfold State.reportBay
  split
  · exact .refl s
  · split
    · exact does_writeBay s b _ (Bay.zone_report _ _ _)
    · exact .refl s

theorem does_bayPoll (s : State) (i a : Nat) (slots : List RawValue) : Does .holdEnd s (s.bayPoll i a slots) :=
  ((Does.forAll (fun t b => does_reportBay slots t b) s _).mono rfl).trans (does_endLostHolds _)

theorem does_bayNodeChange (s : State) (i a : Nat) (new : NodeState) : Does .bay s (s.bayNodeChange i a new) :=
  .ite (fun _ => .forAll (fun t b => does_writeBay t b _ (by intro _; rfl)) s _) fun _ => .refl s

theorem does_settleIn (s : State) (b : Nat) : Does .holdEnd s (s.settleIn b) := by
  unfold State.settleIn
  split
  · exact .refl s
  · rename_i r _
    have h : Does .holdEnd s
        ((s.writeBay b fun r' => { r' with occ := .occupied, deadline := none }).movement r.zone) :=
      Does.trans ((does_writeBay s b _ (by intro _; rfl)).mono rfl) ((does_movement _ _).mono rfl)
    dsimp only
    split
    · exact h.trans (does_endHold _ _ _)
    · exact h

end Sys2Proof.Machine
end

