-- ==== Sys2Proof/Laws/Blocks.lean ====
section
/-! SUPPORT. What the operations of the ventilation, zone status, air and guidance units do. -/

namespace Sys2Proof.Machine

/-! ### Ventilation -/

/-- What a recomputation touches. -/
def Touch.recompute : Touch := { segs := true, vent := true, shafts := true }

/-- What the ventilation unit touches. -/
def Touch.ventil : Touch := { segs := true, vent := true, shafts := true, drives := true, notices := true }

theorem does_writeAvailable (s : State) (w : DriveDuty → Bool) (n : Nat) : Does .segsOnly s (s.writeAvailable w n) :=
  .forAll (fun t (_ : Nat × Drive) => does_command t _ _ _) s _

theorem does_writeDrives (s : State) (w : DriveDuty → Bool) (n : Nat) : Does .segsOnly s (s.writeDrives w n) :=
  .forAll (fun t (_ : Nat × Drive) => does_command t _ _ _) s _

theorem does_writeJet (s : State) (z : Nat) : Does .segsOnly s (s.writeJet z) := by
  unfold State.writeJet
  split
  · exact does_writeAvailable _ _ _
  · exact .refl s

theorem does_storeAllocations (s : State) (ring : List Nat) (al : List (Nat × Nat)) :
    Does .ventOnly s (s.storeAllocations ring al) :=
  .forAll (fun t z => does_onVent t z _) s _

theorem does_recomputeShaft (s : State) (n : Nat) : Does .recompute s (s.recomputeShaft n) := by
  unfold State.recomputeShaft
  split
  · exact .refl s
  · dsimp only
    refine Does.trans ?_ ((Does.forAll (fun t z => does_writeJet t z) _ _).mono rfl)
    refine Does.trans ?_ ((does_writeAvailable _ _ _).mono rfl)
    refine Does.trans ?_ ((does_storeAllocations _ _ _).mono rfl)
    exact (does_onShaft s n _).mono rfl

theorem does_recomputeLone (s : State) (z : Nat) : Does .recompute s (s.recomputeLone z) :=
  ((does_onVent s z _).mono rfl).trans ((does_writeJet _ z).mono rfl)

theorem does_recomputeFor (s : State) (z : Nat) : Does .recompute s (s.recomputeFor z) := by
  unfold State.recomputeFor
  split
  · exact does_recomputeShaft _ _
  · exact does_recomputeLone _ _

theorem does_recomputeAll (s : State) : Does .recompute s s.recomputeAll :=
  (Does.forAll (fun t n => does_recomputeShaft t n) s _).trans (.forAll (fun t z => does_recomputeLone t z) _ _)

theorem does_updateZone (s : State) (z : Nat) : Does .recompute s (s.updateZone z) := by
  unfold State.updateZone
  split
  · exact .refl s
  · dsimp only
    refine .ite (fun _ => (does_onVent s z _).mono rfl) fun _ => ?_
    exact .ite (fun _ => (does_onVent s z _).mono rfl)
      fun _ => ((does_onVent s z _).mono rfl).trans (does_recomputeFor _ z)

theorem does_stageUpdate (s : State) (z d : Nat) : Does .recompute s (s.stageUpdate z d) :=
  .ite (fun _ => does_updateZone s z) fun _ => ((does_onVent s z _).mono rfl).trans (does_updateZone _ z)

theorem does_refreshCapacity (s : State) (n : Nat) : Does .shaftsOnly s (s.refreshCapacity n) := does_onShaft s n _

theorem does_capacityChange (s : State) (n : Nat) : Does .recompute s (s.capacityChange n) := by
  unfold State.capacityChange
  dsimp only
  exact .ite (fun _ => (does_refreshCapacity s n).mono rfl)
    fun _ => ((does_refreshCapacity s n).mono rfl).trans (does_recomputeShaft _ n)

theorem does_capacityChangeAll (s : State) : Does .recompute s s.capacityChangeAll := by
  have h : Does .recompute s (s.forAll s.shafts.places State.refreshCapacity) :=
    .forAll (fun t n => (does_refreshCapacity t n).mono rfl) s _
  unfold State.capacityChangeAll
  dsimp only
  exact .ite (fun _ => h) fun _ => h.trans (.forAll (fun t n => does_recomputeShaft t n) _ _)

theorem does_setAvail (s : State) (n : Nat) (new : Availability) : Does .ventil s (s.setAvail n new) := by
  unfold State.setAvail
  split
  · exact .refl s
  · rename_i d _
    refine .ite (fun _ => .refl s) fun _ => ?_
    dsimp only
    have h : Does .ventil s (if d.avail = .unavailable ∨ new = .unavailable then
        (s.onDrive n fun d' => { d' with avail := new }).raise .driveFault
      else s.onDrive n fun d' => { d' with avail := new }) :=
      .ite (fun _ => ((does_onDrive s n _ (by intro; rfl)).mono rfl).trans ((does_raise _ _).mono rfl))
        fun _ => (does_onDrive s n _ (by intro; rfl)).mono rfl
    split
    · exact h.trans ((does_capacityChange _ _).mono rfl)
    · refine h.trans ?_
      exact .ite (fun _ => (does_onVent _ _ _).mono rfl)
        fun _ => ((does_onVent _ _ _).mono rfl).trans ((does_writeJet _ _).mono rfl)

theorem does_driveNodeChange (s : State) (i a : Nat) (old new : NodeState) :
    Does .ventil s (s.driveNodeChange i a old new) :=
  .forAll (fun t n => by
    split
    · exact .refl t
    · dsimp only
      refine Does.trans ?_ (does_setAvail _ n _)
      exact .ite (fun _ => (does_onDrive t n _ (by intro; rfl)).mono rfl) fun _ => .refl t) s _

theorem does_driveReport (s : State) (i a : Nat) (r : DriveState) : Does .ventil s (s.driveReport i a r) :=
  .forAll (fun t n => by
    split
    · exact .refl t
    · exact ((does_onDrive t n _ (by intro; rfl)).mono rfl).trans (does_setAvail _ n _)) s _

theorem does_writeSmokeJet (s : State) (level z : Nat) : Does .segsOnly s (s.writeSmokeJet level z) :=
  does_writeDrives s _ _

theorem does_writeSmokeJets (s : State) (level : Nat) : Does .segsOnly s (s.writeSmokeJets level) :=
  .forAll (fun t z => does_writeSmokeJet t level z) s _

theorem does_vent_each (s : State) (f : Nat → VentZone → VentZone) :
    Does .ventOnly s { s with vent := s.vent.each f } := by
  refine .of_plain ?_ rfl rfl rfl rfl ?_
  · constructor <;> intros <;> first | rfl | contradiction
  · intro h; simpa [State.tablesRising, State.nodesRising] using h

theorem does_plant_each (s : State) (f : Nat → VentZone → VentZone) (g : Nat → Shaft → Shaft) :
    Does .recompute s { s with vent := s.vent.each f, shafts := s.shafts.each g } := by
  refine .of_plain ?_ rfl rfl rfl rfl ?_
  · constructor <;> intros <;> first | rfl | contradiction
  · intro h; simpa [State.tablesRising, State.nodesRising] using h

theorem does_ventSmokeEntry (s : State) (level : Nat) : Does .recompute s (s.ventSmokeEntry level) := by
  unfold State.ventSmokeEntry
  dsimp only
  refine Does.trans ?_ ((does_writeSmokeJets _ level).mono rfl)
  refine Does.trans ?_ ((Does.forAll (fun t n => does_writeDrives t (DriveDuty.ofShaft n) 100) _ _).mono rfl)
  exact does_plant_each s _ _

theorem does_ventSmokeClear (s : State) : Does .recompute s s.ventSmokeClear :=
  ((does_vent_each s _).mono rfl).trans (does_recomputeAll _)

theorem does_ringChange (s : State) (n : Nat) (ring : List Nat) : Does .recompute s (s.ringChange n ring) :=
  .ite (fun _ => (does_onShaft s n _).mono rfl)
    fun _ => ((does_onShaft s n _).mono rfl).trans (does_recomputeShaft _ n)

theorem does_leaveShaft (s : State) (z : Nat) (o : Option Nat) : Does .shaftsOnly s (s.leaveShaft z o) := by
  cases o with
  | none => exact .refl s
  | some n => exact does_onShaft s n _

theorem does_joinShaft (s : State) (z : Nat) (o : Option Nat) : Does .shaftsOnly s (s.joinShaft z o) := by
  cases o with
  | none => exact .refl s
  | some n => exact does_onShaft s n _

/-! ### Zone status -/

/-- What a closure touches. -/
def Touch.closure : Touch :=
  { segs := true, bays := true, free := true, holds := true, escorts := true, ends := true, lights := true,
    notices := true, signs := true, status := true }

theorem does_markZones (s : State) (zs : List Nat) (c : ClosureCause) (b : Bool) :
    Does .statusOnly s (s.markZones zs c b) :=
  .forAll (fun t z => does_onStatus t z _) s _

theorem does_closureHanded (s : State) (zs : List Nat) (c : ClosureCause) : Does .closure s (s.closureHanded zs c) := by
  unfold State.closureHanded
  dsimp only
  refine Does.trans ?_ ((does_raise _ _).mono rfl)
  exact .ite (fun _ => ((does_retargetZones s zs).mono rfl).trans
      ((Does.forAll (fun t z => does_relight t z) _ zs).mono rfl))
    fun _ => (does_retargetZones s zs).mono rfl

theorem does_addCause (s : State) (zs : List Nat) (c : ClosureCause) : Does .closure s (s.addCause zs c) := by
  unfold State.addCause
  split
  · exact .refl s
  · dsimp only
    refine Does.trans ?_ (does_closureHanded _ _ c)
    exact ((does_markZones s _ c true).mono rfl).trans ((does_endHolds _ _ _).mono rfl)

theorem does_removeCause (s : State) (zs : List Nat) (c : ClosureCause) : Does .closure s (s.removeCause zs c) := by
  unfold State.removeCause
  split
  · exact .refl s
  · exact ((does_markZones s _ c false).mono rfl).trans (does_closureHanded _ _ c)

theorem does_status_each (s : State) (f : Nat → ZoneStatus → ZoneStatus) :
    Does .statusOnly s { s with status := s.status.each f } := by
  refine .of_plain ?_ rfl rfl rfl rfl ?_
  · constructor <;> intros <;> first | rfl | contradiction
  · intro h; simpa [State.tablesRising, State.nodesRising] using h

theorem does_lapse (s : State) (v : Lapse) (b : Bool) :
    Does { lapse := true } s { s with lapse := v, lapseHolds := b } := by
  refine .of_plain ?_ rfl rfl rfl rfl id
  constructor <;> intros <;> first | rfl | contradiction

theorem does_lapseEnds (s : State) : Does { lapse := true } s s.lapseEnds := does_lapse s _ _

/-- What a lapse touches. -/
def Touch.lapsing : Touch :=
  { lapse := true, status := true, segs := true, vent := true, shafts := true, lights := true, notices := true }

theorem does_takeLapse (s : State) : Does .lapsing s s.takeLapse := by
  unfold State.takeLapse
  dsimp only
  refine Does.trans ?_ ((does_raise _ _).mono rfl)
  refine Does.trans ?_ ((Does.forAll (fun t z => does_relight t z) _ _).mono rfl)
  refine Does.trans ?_ ((Does.forAll (fun t z => does_updateZone t z) _ _).mono rfl)
  exact ((does_lapse s .lapsed s.lapseHolds).mono rfl).trans ((does_status_each _ _).mono rfl)

theorem does_supply (s : State) (v : Supply) : Does { supply := true } s { s with supply := v } := by
  refine .of_plain ?_ rfl rfl rfl rfl id
  constructor <;> intros <;> first | rfl | contradiction

/-- What a change of supply touches. -/
def Touch.supplied : Touch := { supply := true, segs := true, vent := true, shafts := true, lights := true }

theorem does_setSupply (s : State) (v : Supply) : Does .supplied s (s.setSupply v) :=
  .ite (fun _ => .refl s) fun _ => by
    refine Does.trans ?_ ((does_relightAll _).mono rfl)
    exact ((does_supply s v).mono rfl).trans ((does_capacityChangeAll _).mono rfl)

theorem does_smokeRecord (s : State) (v : Option Nat) : Does { smoke := true } s { s with smoke := v } := by
  refine .of_plain ?_ rfl rfl rfl rfl id
  constructor <;> intros <;> first | rfl | contradiction

/-- What smoke mode's changes touch. -/
def Touch.smoky : Touch :=
  { smoke := true, segs := true, bays := true, free := true, holds := true, escorts := true, ends := true,
    lights := true, notices := true, signs := true, status := true, vent := true, shafts := true }

theorem does_clearForSmoke (s : State) : Does { status := true, vent := true } s s.clearForSmoke := by
  unfold State.clearForSmoke
  exact ((does_status_each s _).mono rfl).trans
    ((Does.forAll (fun t z => does_onVent t z (t.sized z)) _ _).mono rfl)

theorem does_smokeEntry (s : State) (level : Nat) : Does .smoky s (s.smokeEntry level) := by
  unfold State.smokeEntry
  dsimp only
  refine Does.trans ?_ ((does_raise _ _).mono rfl)
  refine Does.trans ?_ ((does_retargetAll _).mono rfl)
  refine Does.trans ?_ ((does_relightAll _).mono rfl)
  refine Does.trans ?_ ((does_ventSmokeEntry _ level).mono rfl)
  refine Does.trans ?_ ((does_clearForSmoke _).mono rfl)
  exact ((does_smokeRecord s _).mono rfl).trans ((does_addCause _ _ _).mono rfl)

theorem does_fireLevelChange (s : State) (level : Nat) : Does .smoky s (s.fireLevelChange level) := by
  unfold State.fireLevelChange
  refine Does.trans ?_ ((does_raise _ _).mono rfl)
  exact ((does_smokeRecord s _).mono rfl).trans ((does_writeSmokeJets _ _).mono rfl)

theorem does_smokeClearing (s : State) : Does .smoky s s.smokeClearing := by
  unfold State.smokeClearing
  dsimp only
  refine Does.trans ?_ ((does_raise _ _).mono rfl)
  refine Does.trans ?_ ((does_retargetAll _).mono rfl)
  refine Does.trans ?_ ((does_relightAll _).mono rfl)
  refine Does.trans ?_ ((does_ventSmokeClear _).mono rfl)
  exact ((does_smokeRecord s _).mono rfl).trans ((does_removeCause _ _ _).mono rfl)

/-! ### Air -/

/-- What the air unit's events touch. -/
def Touch.airy : Touch :=
  { air := true, segs := true, vent := true, shafts := true, bays := true, free := true, holds := true, escorts := true,
    ends := true, lights := true, notices := true, signs := true, status := true }

theorem does_dUpdate (s : State) (z : Nat) (i : Option Nat) :
    Does { air := true, segs := true, vent := true, shafts := true } s (s.dUpdate z i) := by
  unfold State.dUpdate
  split
  · exact .refl s
  · exact ((does_onAir s z _).mono rfl).trans ((does_stageUpdate _ _ _).mono rfl)

theorem does_sample (s : State) (z : Nat) :
    Does { air := true, segs := true, vent := true, shafts := true } s (s.sample z) :=
  ((does_onAir s z _).mono rfl).trans (does_dUpdate _ z _)

theorem does_handAlarms (b s : State) : Does .airy s (State.handAlarms b s) := by
  unfold State.handAlarms
  dsimp only
  have h := Does.trans ((does_addCause s (changedZones b s fun x y => !x.airState && y.airState) .air).mono rfl)
    ((does_removeCause _ (changedZones b s fun x y => x.airState && !y.airState) .air).mono (b := .airy) rfl)
  exact .ite (fun _ => h) fun _ => h.trans ((does_raise _ _).mono rfl)

theorem does_airEvent (f : State → State) (s : State) (h : Does .airy s (f s)) : Does .airy s (airEvent f s) :=
  h.trans (does_handAlarms s (f s))

theorem does_startLoss (s : State) (z : Nat) : Does .airOnly s (s.startLoss z) :=
  .ite (fun _ => .refl s) fun _ => does_onAir s z _

theorem does_gasNodeChange (s : State) (i a : Nat) (new : NodeState) :
    Does { gas := true, air := true } s (s.gasNodeChange i a new) := by
  unfold State.gasNodeChange
  dsimp only
  refine Does.trans ?_ ((Does.forAll (fun t z => does_startLoss t z) _ _).mono rfl)
  exact .ite (fun _ => .forAll (fun t c => (does_onGas t c _).mono rfl) s _) fun _ => .refl s

/-- What a gas poll touches. -/
def Touch.gassed : Touch := { Touch.airy with gas := true }

theorem does_gasPoll (s : State) (i a v0 : Nat) (s0 : GasStatus) (v1 : Nat) (s1 : GasStatus) :
    Does .gassed s (s.gasPoll i a v0 s0 v1 s1) := by
  unfold State.gasPoll
  dsimp only
  refine Does.trans ?_ ((Does.forAll (fun t z => does_startLoss t z) _ _).mono rfl)
  refine Does.trans ?_ ((does_airEvent _ _ (Does.forAll (fun t z => (does_sample t z).mono rfl) _ _)).mono rfl)
  exact (Does.forAll (fun t n => does_onGas t n _) s _).mono rfl

theorem does_creditEvent (s : State) (c : VehicleClass) (zs : List Nat) : Does .airy s (s.creditEvent c zs) :=
  does_airEvent _ s (.forAll (fun t z => ((does_onAir t z _).mono rfl).trans ((does_dUpdate _ z none).mono rfl)) _ _)

theorem does_minuteClose (s : State) : Does .airy s s.minuteClose :=
  does_airEvent _ s (.forAll (fun t z => ((does_onAir t z _).mono rfl).trans ((does_dUpdate _ z none).mono rfl)) _ _)

theorem does_setLoss (s : State) (z : Nat) : Does .airy s (s.setLoss z) :=
  does_airEvent _ s (((does_onAir s z _).mono rfl).trans ((does_updateZone _ z).mono rfl))

/-! ### Guidance -/

theorem does_traffic (s : State) (c : VehicleClass) (zs : List Nat) : Does .airy s (s.traffic c zs) :=
  (does_creditEvent s c zs).trans (.forAll (fun t z => (does_movement t z).mono rfl) _ _)

theorem does_putHold (s : State) (n : Nat) (h : Hold) :
    Does { holds := true, holdPtr := true } s { s with holdPtr := n, holds := s.holds.put n h } := by
  refine .of_plain ?_ rfl rfl rfl rfl ?_
  · constructor <;> intros <;> first | rfl | contradiction
  · intro w
    simp only [State.tablesRising, Bool.and_eq_true] at w ⊢
    simp only [State.nodesRising] at w ⊢
    simp [w, Table.rising_put]

/-- What a new hold touches. -/
def Touch.guided : Touch := { Touch.airy with holdPtr := true }

theorem does_createHold (s : State) (n : Nat) (h : Hold) : Does .guided s (s.createHold n h) := by
  unfold State.createHold
  dsimp only
  refine Does.trans ?_ ((does_traffic _ _ _).mono rfl)
  refine Does.trans ?_ ((Does.forAll (fun t z => does_raiseEscort t z) _ h.route).mono rfl)
  refine Does.trans ?_ ((does_writeBay _ h.bay _ (by intro _; rfl)).mono rfl)
  exact (does_putHold s n h).mono rfl

theorem does_settleOut (s : State) (b : Nat) : Does .airy s (s.settleOut b) := by
  unfold State.settleOut
  split
  · exact .refl s
  · refine Does.trans ?_ (does_creditEvent _ _ _)
    exact ((does_writeBay s b _ (by intro _; rfl)).mono rfl).trans ((does_movement _ _).mono rfl)

end Sys2Proof.Machine
end

