-- ==== Sys2Proof/Laws/Field.lean ====
section
/-! SUPPORT. What the field controller's operations do. -/

namespace Sys2Proof.Machine

/-- What the handover of a node's state change touches. -/
def Touch.nodeHanded : Touch :=
  { segs := true, bays := true, free := true, gas := true, air := true, drives := true, vent := true, shafts := true,
    signs := true, notices := true }

/-- What a node's state change touches. -/
def Touch.noded : Touch := { Touch.nodeHanded with engine := true }

/-- What the handover of a good reply touches. -/
def Touch.payloadHanded : Touch := { Touch.gassed with drives := true }

/-- What a field event touches, the part state apart. -/
def Touch.fielded : Touch := { Touch.payloadHanded with engine := true }

/-- What an event that may end discovery touches. -/
def Touch.entering : Touch := { Touch.fielded with part := true }

theorem does_handNode (s : State) (i a : Nat) (k : NodeKind) (old new : NodeState) :
    Does .nodeHanded s (s.handNode i a k old new) := by
  cases k
  · exact (does_bayNodeChange s i a new).mono rfl
  · exact (does_gasNodeChange s i a new).mono rfl
  · exact (does_driveNodeChange s i a old new).mono rfl
  · exact .refl s
  · exact (does_signNodeChange s i a new).mono rfl

theorem does_writeNode (s : State) (i a : Nat) (f : Node → Node) : Does .noded s (s.writeNode i a f) := by
  unfold State.writeNode
  split
  · exact .refl s
  · rename_i old _
    dsimp only
    have h : Does .noded s (s.onSeg i fun g => { g with nodes := g.nodes.adjust a fun _ => (f old).settled old.state }) :=
      (does_onSeg s i _ fun g hg => by simpa using hg).mono rfl
    refine .ite (fun _ => h) fun _ => Does.trans ?_ ((does_handNode _ _ _ _ _ _).mono rfl)
    exact .ite (fun _ => h.trans ((does_raise _ _).mono rfl)) fun _ => h

/-! ### The engine -/

theorem does_endTransaction (s : State) (i : Nat) : Does .engineOnly s (s.endTransaction i) := does_onSeg s i _ fun _ h => h

theorem does_sendProbe (s : State) (i a : Nat) : Does .engineOnly s (s.sendProbe i a) := does_onSeg s i _ fun _ h => h

theorem does_part (s : State) (v : PartState) : Does { part := true } s { s with part := v } := by
  refine .of_plain ?_ rfl rfl rfl rfl id
  constructor <;> intros <;> first | rfl | contradiction

theorem does_checkRun (s : State) : Does { part := true } s s.checkRun :=
  .ite (fun _ => does_part s .run) fun _ => .refl s

theorem does_wakeActiveEnd (s : State) (i : Nat) : Does .engineOnly s (s.wakeActiveEnd i) :=
  does_onSeg s i _ fun g h => by cases hp : g.phase <;> simpa [hp] using h

theorem does_wakeEnd (s : State) (i : Nat) : Does .engineOnly s (s.wakeEnd i) :=
  does_onSeg s i _ fun g h => by cases hp : g.phase <;> simpa [hp] using h

theorem does_rollCallSent (s : State) (i : Nat) : Does .engineOnly s (s.rollCallSent i) := by
  unfold State.rollCallSent
  dsimp only
  split
  · exact does_onSeg s i _ fun _ h => h
  · refine .ite (fun _ => ?_) fun _ => .refl s
    split
    · exact does_sendProbe s i _
    · exact does_onSeg s i _ fun _ h => h
  · exact .refl s

theorem does_probeFallsDue (s : State) (i : Nat) : Does .engineOnly s (s.probeFallsDue i) := by
  unfold State.probeFallsDue
  dsimp only
  refine .ite (fun _ => ?_) fun _ => .refl s
  split
  · split
    · exact does_sendProbe s i _
    · exact .refl s
  · exact does_onSeg s i _ fun _ h => h

theorem does_pollSent (s : State) (i : Nat) : Does .engineOnly s (s.pollSent i) := by
  unfold State.pollSent
  split
  · split
    · exact does_onSeg s i _ fun _ h => h
    · exact does_onSeg s i _ fun _ h => h
    all_goals exact .refl s
  · exact .refl s

theorem does_setSent (s : State) (i : Nat) : Does { segs := true, engine := true, signs := true } s (s.setSent i) := by
  unfold State.setSent
  split
  · rename_i a n _
    split
    · rename_i v _
      dsimp only
      have h : Does { segs := true, engine := true, signs := true } s (s.onSeg i fun g => { g with lastServed := a }.send .set a false v.bytes) :=
        (does_onSeg s i _ (by intro _ h; exact h)).mono rfl
      split
      · exact .ite (fun _ => h) fun _ => h.trans ((does_displaySent _ _ _ _).mono rfl)
      · exact h
    · exact .refl s
  · exact .refl s

theorem does_frameEnd (s : State) (i : Nat) : Does .engineOnly s (s.frameEnd i) :=
  does_onSeg s i _ fun g h => by cases hp : g.phase <;> simpa [hp] using h

/-! ### Roll calls and probes -/

theorem does_resolve (s : State) (i a : Nat) (rc : RollCall) (r : Resolved) : Does .noded s (s.resolve i a rc r) :=
  .ite (fun _ => (does_onSeg s i _ (by intro _ h; exact h)).mono rfl) fun _ =>
    .ite (fun _ => (does_onSeg s i _ (by intro _ h; exact Table.rising_put _ _ _ h)).mono rfl) fun _ => does_writeNode s i a _

theorem rising_foldl_put {α β : Type} (rs : List β) (k : β → Nat) (v : β → α) (t : Table α) (h : t.rising = true) :
    (rs.foldl (fun t e => Table.put t (k e) (v e)) t).rising = true := by
  induction rs generalizing t with
  | nil => exact h
  | cons e rs ih => exact ih _ (Table.rising_put _ _ _ h)

theorem does_applyResults (s : State) (i : Nat) (rs : Table Resolved) : Does .noded s (s.applyResults i rs) :=
  .ite (fun _ => (does_onSeg s i _ (by intro _ _; exact rising_foldl_put rs _ _ [] rfl)).mono rfl) fun _ =>
    .forAll (fun t (e : Nat × Resolved) => does_writeNode t i e.1 _) s rs

/-- What the end of a roll call touches. -/
def Touch.resolved : Touch := { Touch.noded with part := true }

theorem does_nextRollCall (s : State) (i : Nat) : Does .resolved s (s.nextRollCall i) := by
  unfold State.nextRollCall
  dsimp only
  split
  · exact .refl s
  · rename_i rc _
    refine .ite (fun _ => (does_onSeg s i _ (by intro _ h; exact h)).mono rfl) fun _ => ?_
    refine Does.trans ?_ ((does_checkRun _).mono rfl)
    refine Does.trans ?_ ((does_onSeg _ i _ (by intro _ h; exact h)).mono rfl)
    exact .ite (fun _ => (does_applyResults s i rc.results).mono rfl) fun _ => .refl s

theorem does_rollCallAnswer (s : State) (i a : Nat) (rc : RollCall) (k : NodeKind) :
    Does .resolved s (s.rollCallAnswer i a rc k) := by
  unfold State.rollCallAnswer
  dsimp only
  refine Does.trans ?_ (does_nextRollCall _ i)
  refine .ite (fun _ => (does_resolve _ _ _ _ _).mono rfl) fun _ => ?_
  split
  · exact (does_resolve _ _ _ _ _).mono rfl
  · exact (does_onSeg s i _ (by intro _ h; exact h)).mono rfl

theorem does_rollCallMiss (s : State) (i a : Nat) (rc : RollCall) (c : FailureCause) :
    Does .resolved s (s.rollCallMiss i a rc c) := by
  unfold State.rollCallMiss
  dsimp only
  refine .ite (fun _ => (does_onSeg s i _ (by intro _ h; exact h)).mono rfl) fun _ => ?_
  refine Does.trans ?_ (does_nextRollCall _ i)
  split
  · exact .ite (fun _ => .refl s) fun _ => (does_resolve _ _ _ _ _).mono rfl
  · exact .refl s

theorem does_probeAnswer (s : State) (i a : Nat) (k : NodeKind) : Does .noded s (s.probeAnswer i a k) :=
  .ite (fun _ => (does_onSeg s i _ (by intro _ h; exact Table.rising_put _ _ _ h)).mono rfl)
    fun _ => does_writeNode s i a _

theorem does_probeMiss (s : State) (i a : Nat) (c : FailureCause) : Does .noded s (s.probeMiss i a c) :=
  .ite (fun _ => .refl s) fun _ => does_writeNode s i a _

/-! ### Replies -/

theorem does_handPayload (s : State) (i a : Nat) (p : Payload) : Does .payloadHanded s (s.handPayload i a p) := by
  unfold State.handPayload
  refine .ite (fun _ => .refl s) fun _ => ?_
  cases p with
  | nothing => exact .refl s
  | bay slots => exact (does_bayPoll s i a slots).mono rfl
  | gas v0 s0 v1 s1 => exact (does_gasPoll s i a v0 s0 v1 s1).mono rfl
  | drive v st fb => exact (does_driveReport s i a st).mono rfl
  | lamp v n => exact .forAll (fun t z => (does_luminaires t z n).mono rfl) s _
  | sign d => exact (does_displayShown s i a d).mono rfl

theorem does_goodPoll (s : State) (i : Nat) (frame : List Byte) : Does .fielded s (s.goodPoll i frame) := by
  unfold State.goodPoll
  split
  · exact .refl s
  · refine Does.trans ?_ ((does_handPayload _ _ _ _).mono rfl)
    exact ((does_endTransaction s i).mono rfl).trans ((does_writeNode _ _ _ _).mono rfl)

theorem does_goodSet (s : State) (i : Nat) (frame : List Byte) : Does .fielded s (s.goodSet i frame) := by
  unfold State.goodSet
  split
  · exact .refl s
  · refine Does.trans ?_ ((does_handPayload _ _ _ _).mono rfl)
    exact ((does_endTransaction s i).mono rfl).trans ((does_writeNode _ _ _ _).mono rfl)

theorem does_validRollCall (s : State) (i : Nat) (frame : List Byte) : Does .resolved s (s.validRollCall i frame) := by
  unfold State.validRollCall
  split
  · exact .refl s
  · refine .ite (fun _ => ?_) fun _ => .refl s
    split
    · refine .ite (fun _ => ?_) fun _ => ?_
      · exact ((does_probeAnswer _ _ _ _).mono rfl).trans ((does_endTransaction _ i).mono rfl)
      · split
        · exact ((does_endTransaction _ i).mono rfl).trans (does_rollCallAnswer _ _ _ _ _)
        · exact (does_endTransaction _ i).mono rfl
    · exact .refl s

theorem does_miss (s : State) (i : Nat) (tx : Transaction) (c : FailureCause) : Does .resolved s (s.miss i tx c) := by
  unfold State.miss
  split
  · refine .ite (fun _ => ?_) fun _ => ?_
    · exact ((does_probeMiss _ _ _ _).mono rfl).trans ((does_endTransaction _ i).mono rfl)
    · split
      · exact ((does_endTransaction _ i).mono rfl).trans (does_rollCallMiss _ _ _ _ _)
      · exact (does_endTransaction _ i).mono rfl
  all_goals exact ((does_writeNode _ _ _ _).mono rfl).trans ((does_endTransaction _ i).mono rfl)

theorem does_wrongKind (s : State) (i : Nat) (frame : List Byte) : Does .resolved s (s.wrongKind i frame) := by
  unfold State.wrongKind
  split
  · exact .refl s
  · split
    · exact .refl s
    all_goals
      split
      · exact .ite (fun _ => .refl s) fun _ => does_miss _ _ _ _
      · exact .refl s

theorem does_badFrame (s : State) (i : Nat) (frame : List Byte) : Does .resolved s (s.badFrame i frame) := by
  unfold State.badFrame
  split
  · exact .refl s
  · split
    · exact does_miss _ _ _ _
    all_goals exact .refl s

theorem does_gap (s : State) (i : Nat) : Does .resolved s (s.gap i) := by
  unfold State.gap
  split
  · exact does_miss _ _ _ _
  · exact .refl s

theorem does_timeout (s : State) (i : Nat) : Does .resolved s (s.timeout i) := by
  unfold State.timeout
  split
  · exact does_miss _ _ _ _
  · exact .refl s

/-! ### Hangs and the end of a field event -/

theorem does_hangDetected (s : State) (i : Nat) : Does .resolved s (s.hangDetected i) := by
  unfold State.hangDetected
  refine .ite (fun _ => ?_) fun _ => .refl s
  dsimp only
  refine Does.trans ?_ ((does_checkRun _).mono rfl)
  have h : Does .resolved s (s.onSeg i Segment.hang) := (does_onSeg s i _ (by intro _ h; exact h)).mono rfl
  exact .ite (fun _ => h) fun _ => h.trans ((does_raise _ _).mono rfl)

theorem does_idleTest (s : State) (i : Nat) (idle : Bool) : Does .engineOnly s (s.idleTest i idle) :=
  does_onSeg s i _ fun g h => by
    show (if _ then _ else g : Segment).nodes.rising = true
    split <;> exact h

theorem does_hungLoss (s : State) (i : Nat) : Does .noded s (s.hungLoss i) :=
  .ite (fun _ => .forAll (fun t a => does_writeNode t i a _) s _) fun _ => .refl s

theorem does_fieldEvent {k : Touch} (f : State → State) (s : State) (h : Does k s (f s)) (w : k.within .entering = true) :
    Does .entering s (fieldEvent f s) := by
  refine Does.trans ?_ ((does_handCounts s _).mono rfl)
  exact (h.mono w).trans ((does_endLostHolds _).mono rfl)

theorem does_countingEvent {k : Touch} (f : State → State) (s : State) (h : Does k s (f s))
    (w : Touch.within .handed k = true) : Does k s (countingEvent f s) :=
  h.trans ((does_handCounts s _).mono w)

end Sys2Proof.Machine
end

