-- ==== Sys2Proof/Laws/Requests.lean ====
section
/-! SUPPORT. What the port unit and the serving blocks do, and how a request completes. -/

namespace Sys2Proof.Machine

/-- What a served block leaves is what an operation touching these kinds leaves. -/
def Serves (k : Touch) (s : State) (b : Served) : Prop := ∀ t data, b = .served t data → Does k s t

theorem Serves.refused {k : Touch} (s : State) (w : Status) : Serves k s (.refused w) := by
  intro t data h; cases h

theorem Serves.served {k : Touch} {s t : State} (data : State → List Byte) (h : Does k s t) :
    Serves k s (.served t data) := by
  intro t' d e; cases e; exact h

theorem Serves.demand {k : Touch} {s : State} {b : Served} (ok : Bool) (w : Status) (h : Serves k s b) :
    Serves k s (demand ok w b) := by
  unfold Machine.demand
  cases ok
  · exact .refused s w
  · exact h

theorem Serves.answers {k : Touch} (s : State) (data : List Byte) : Serves k s (answers s data) :=
  .served _ (.refl s)

theorem Serves.mono {a b : Touch} {s : State} {v : Served} (h : Serves a s v) (w : a.within b = true) : Serves b s v :=
  fun t d e => (h t d e).mono w

/-! ### The taking of a request -/

theorem does_send (s : State) (p : Port) (c : Byte) (st : Status) (d : List Byte) :
    Does .portsOnly s (s.send p c st d) := does_onPort s p _

/-- What the taking of a request touches. -/
def Touch.taking : Touch := { ports := true, lapse := true }

theorem does_taken (s : State) (p : Port) : Does .taking s (s.taken p) := by
  unfold State.taken
  dsimp only
  exact .ite (fun _ => ((does_onPort s p _).mono rfl).trans ((does_lapseEnds _).mono rfl))
    fun _ => (does_onPort s p _).mono rfl

/-- What serving a request touches beside its block. -/
def Touch.framing : Touch := { ports := true, lapse := true, segs := true, signs := true, notices := true }

theorem does_serve {k : Touch} (s : State) (p : Port) (c : Catalogued) (b : State → Served) (h : Serves k s (b s))
    (w : Touch.within .framing k = true) : Does k s (s.serve p c b) := by
  have hs : ∀ t st d, Does k t (t.send p c.code st d) := fun t st d =>
    ((does_send t p c.code st d).mono (b := .framing) rfl).mono w
  unfold State.serve
  split
  · exact hs _ _ _
  · split
    · exact hs _ _ _
    · rename_i t data e
      exact ((h t data e).trans (((does_handCounts s t).mono (b := .framing) rfl).mono w)).trans (hs _ _ _)

theorem does_arrival {k : Touch} (s : State) (p : Port) (f : State → State) (h : ∀ t, Does k t (f t))
    (w : Touch.within .framing k = true) : Does k s (s.arrival p f) :=
  .ite (fun _ => .refl s) fun _ =>
    .ite (fun _ => ((does_onPort s p _).mono (b := .framing) rfl).mono w)
      fun _ => (((does_taken s p).mono (b := .framing) rfl).mono w).trans (h _)

/-! ### How a request completes -/

/-- The state a served request leaves: its block's work, the free counts handed over, and the reply. -/
def replied (p : Port) (c : Catalogued) (s t : State) (data : State → List Byte) : State :=
  (State.handCounts s t).send p c.code .ok (data (State.handCounts s t))

/-- A request that the port unit passes and the block serves. -/
theorem request_served (p : Port) (c : Catalogued) (b : State → Served) (s t : State) (data : State → List Byte)
    (h : s.ready p c.right) (e : b (s.taken p) = .served t data) :
    request p c b s = .next (replied p c (s.taken p) t data) := by
  obtain ⟨h1, h2, h3, h4, h5⟩ := h
  have hp : (s.taken p).part = .run := by
    simp only [State.taken]; split <;> simpa [State.lapseEnds] using h2
  have hr : ((s.taken p).ports.at p).rights = (s.ports.at p).rights := by
    simp only [State.taken]; split <;> simp [State.lapseEnds]
  have hg : (s.taken p).gate p c = none := by simp [State.gate, hp, hr, h5]
  simp [request, event, h1, State.arrival, h3, h4, State.serve, hg, e, replied]

/-- A request that the port unit passes and the block refuses. -/
theorem request_refused (p : Port) (c : Catalogued) (b : State → Served) (s : State) (w : Status)
    (h : s.ready p c.right) (e : b (s.taken p) = .refused w) :
    request p c b s = .next ((s.taken p).send p c.code w []) := by
  obtain ⟨h1, h2, h3, h4, h5⟩ := h
  have hp : (s.taken p).part = .run := by
    simp only [State.taken]; split <;> simpa [State.lapseEnds] using h2
  have hr : ((s.taken p).ports.at p).rights = (s.ports.at p).rights := by
    simp only [State.taken]; split <;> simp [State.lapseEnds]
  have hg : (s.taken p).gate p c = none := by simp [State.gate, hp, hr, h5]
  simp [request, event, h1, State.arrival, h3, h4, State.serve, hg, e]

/-- A taken request whose reply starts at once: what a request that changes nothing leaves. -/
theorem taken_send (s : State) (p : Port) (c : Byte) (st : Status) (d : List Byte) :
    (s.taken p).send p c st d = s.answering p c st d := by
  unfold State.taken State.answering
  by_cases h : (s.ports.at p).rights.override = true
  · simp only [h, if_true]; cases p <;> rfl
  · simp only [h]; cases p <;> rfl

/-- A request that only reads: nothing is handed over, and the reply carries its data. -/
theorem request_answers (p : Port) (c : Catalogued) (b : State → Served) (s : State) (data : List Byte)
    (h : s.ready p c.right) (e : b (s.taken p) = answers (s.taken p) data) :
    request p c b s = .next ((s.taken p).send p c.code .ok data) := by
  rw [request_served p c b s (s.taken p) (fun _ => data) h e]
  simp only [replied]
  rw [handCounts_same _ _ fun _ => rfl]

end Sys2Proof.Machine
end

