-- ==== Sys2Proof/Laws/Serving.lean ====
section
/-! SUPPORT. What each request's serving block does. -/

namespace Sys2Proof.Machine

/-- Nothing touched. -/
def Touch.nothing : Touch := {}

/-! ### Reads -/

theorem serves_readStatus (s : State) : Serves .nothing s (serveReadStatus s) := .answers _ _

theorem serves_readOptions (s : State) : Serves .nothing s (serveReadOptions s) := .answers _ _

theorem serves_readZone (z : Byte) (s : State) : Serves .nothing s (serveReadZone z s) := .demand _ _ (.answers _ _)

theorem NoticeRecord.sound_baselined (totals : Table Nat) (r : NoticeRecord) : (r.baselined totals).sound = true :=
  NoticeRecord.sound_reevaluate _

theorem serves_readFreeCounts (p : Port) (s : State) : Serves .noticesOnly s (serveReadFreeCounts p s) :=
  .served _ (does_onNotice s p _ fun _ _ => NoticeRecord.sound_baselined _ _)

theorem serves_readBays (z n : Byte) (s : State) : Serves .nothing s (serveReadBays z n s) :=
  .demand _ _ (.demand _ _ (.answers _ _))

theorem serves_readHolds (n : Byte) (s : State) : Serves .nothing s (serveReadHolds n s) := .demand _ _ (.answers _ _)

theorem does_emptyEnds (s : State) (p : Port) :
    Does { ends := true } s { s with ends := s.ends.adjust p fun _ => ⟨[], false⟩ } := by
  refine ⟨?_, id, id, ?_, id, rfl⟩
  · constructor <;> intros <;> first | rfl | contradiction
  · simp only [State.endsSound, Quad.all_iff, decide_eq_true_eq]
    intro h r
    rw [Quad.at_adjust]
    split
    · simp
    · exact h r

theorem serves_readHoldEnds (p : Port) (s : State) : Serves { ends := true } s (serveReadHoldEnds p s) :=
  .served _ (does_emptyEnds s p)

theorem serves_readShaft (k : Byte) (s : State) : Serves .nothing s (serveReadShaft k s) := by
  unfold serveReadShaft
  split
  · exact .refused _ _
  · exact .answers _ _

theorem serves_readNode (g a : Byte) (s : State) : Serves .nothing s (serveReadNode g a s) := .demand _ _ (.answers _ _)

theorem serves_readSegment (g : Byte) (s : State) : Serves .nothing s (serveReadSegment g s) :=
  .demand _ _ (.answers _ _)

theorem serves_readSign (k : Byte) (s : State) : Serves .nothing s (serveReadSign k s) := by
  unfold serveReadSign
  split
  · exact .refused _ _
  · exact .answers _ _

theorem serves_readDose (z : Byte) (s : State) : Serves .nothing s (serveReadDose z s) := by
  unfold serveReadDose
  split
  · exact .refused _ _
  · exact .answers _ _

/-! ### Traffic and guidance -/

theorem serves_point (ramps : Table (List Nat)) (e c : Byte) (s : State) : Serves .airy s (servePoint ramps e c s) := by
  unfold servePoint
  split
  · exact .served _ (does_traffic _ _ _)
  · exact .refused _ _

theorem serves_hold (p : Port) (e : Nat) (c : VehicleClass) (w : Option BayKind) (s : State) :
    Serves .guided s (serveHold p e c w s) := by
  unfold serveHold
  split
  · exact .refused _ _
  · split
    · exact .refused _ _
    · exact .served _ (does_createHold _ _ _)

theorem serves_requestBay (p : Port) (e c k : Byte) (s : State) : Serves .guided s (serveRequestBay p e c k s) := by
  unfold serveRequestBay
  refine .demand _ _ ?_
  split
  · exact .demand _ _ (serves_hold _ _ _ _ _)
  · exact .refused _ _

theorem serves_releaseHold (n : Byte) (b : BitVec 16) (s : State) : Serves .holdEnd s (serveReleaseHold n b s) := by
  unfold serveReleaseHold
  refine .demand _ _ (.demand _ _ ?_)
  split
  · exact .refused _ _
  · exact .demand _ _ (.served _ (does_endHold _ _ _))

/-! ### Edits -/

theorem does_setpoints (s : State) (v : List Nat) : Does { setpoints := true } s { s with setpoints := v } := by
  refine .of_plain ?_ rfl rfl rfl rfl id
  constructor <;> intros <;> first | rfl | contradiction

theorem does_refigure (s : State) (zs : List Nat) : Does .ventOnly s (s.refigure zs) :=
  .forAll (fun t z => does_onVent t z _) s zs

/-- What a setpoint change reaches at once. -/
def Touch.setpointed : Touch := { segs := true, vent := true, shafts := true, lights := true, setpoints := true }

theorem does_setpointsToVent (s : State) (f g c : Bool) : Does .recompute s (s.setpointsToVent f g c) := by
  unfold State.setpointsToVent
  dsimp only
  refine Does.trans ?_ (.forAll (fun t z => does_recomputeLone t z) _ _)
  refine Does.trans ?_ (.forAll (fun t n => does_recomputeShaft t n) _ _)
  have h : ∀ zs, Does .recompute s (s.refigure zs) := fun zs => (does_refigure s zs).mono rfl
  exact .ite (fun _ => (h _).trans (.forAll (fun t n => (does_refreshCapacity t n).mono rfl) _ _)) fun _ => h _

theorem does_setpointsInSmoke (s : State) (l : Nat) (f c j : Bool) : Does .recompute s (s.setpointsInSmoke l f c j) := by
  have h1 : Does .recompute s (if f then s.forAll s.lossZones fun t z => t.onVent z (t.withAlarm z) else s) :=
    .ite (fun _ => .forAll (fun t z => (does_onVent t z _).mono rfl) s _) fun _ => .refl s
  have h2 : ∀ t, Does .recompute t (if c then t.forAll t.shafts.places State.refreshCapacity else t) := fun t =>
    .ite (fun _ => .forAll (fun t n => (does_refreshCapacity t n).mono rfl) _ _) fun _ => .refl t
  unfold State.setpointsInSmoke
  dsimp only
  exact .ite (fun _ => (h1.trans (h2 _)).trans (.forAll (fun t z => (does_writeSmokeJet t l z).mono rfl) _ _))
    fun _ => h1.trans (h2 _)

theorem does_setpointsHanded (s : State) (old : List Nat) : Does .setpointed s (s.setpointsHanded old) := by
  have h : Does .setpointed s (match s.smoke with
      | some level => s.setpointsInSmoke level (s.spChanged old [18])
          (s.supply == .restricted && s.spChanged old [28]) (s.spChanged old [29])
      | none => if s.spChanged old flowSetpoints || s.spChanged old [18]
            || (s.supply == .restricted && s.spChanged old [28]) then
          s.setpointsToVent (s.spChanged old flowSetpoints) (s.spChanged old [18])
            (s.supply == .restricted && s.spChanged old [28])
        else s) := by
    split
    · exact (does_setpointsInSmoke _ _ _ _ _).mono rfl
    · exact .ite (fun _ => (does_setpointsToVent _ _ _ _).mono rfl) fun _ => .refl s
  unfold State.setpointsHanded
  dsimp only
  exact .ite (fun _ => h.trans ((does_relightAll _).mono rfl)) fun _ => h

theorem serves_setSetpoints (ps : List (Byte × BitVec 16)) (s : State) :
    Serves .setpointed s (serveSetSetpoints ps s) :=
  .demand _ _ (.demand _ _ (.served _ (((does_setpoints s _).mono rfl).trans (does_setpointsHanded _ _))))

/-- What a zone's edit touches. -/
def Touch.zoned : Touch := { segs := true, vent := true, shafts := true, tables := true }

theorem does_zone_adjust (s : State) (z : Nat) (f : ZoneEntry → ZoneEntry) :
    Does { tables := true } s { s with zones := s.zones.adjust z f } := by
  refine .of_plain ?_ rfl rfl rfl rfl ?_
  · constructor <;> intros <;> first | rfl | contradiction
  · intro h; simpa [State.tablesRising, State.nodesRising] using h

theorem does_recomputeOption (s : State) (o : Option Nat) : Does .recompute s (s.recomputeOption o) := by
  cases o with
  | none => exact .refl s
  | some n => exact does_recomputeShaft s n

theorem does_moveZone (s : State) (z : Nat) (o n : Option Nat) : Does .recompute s (s.moveZone z o n) := by
  have h : Does .recompute s (((s.leaveShaft z o).joinShaft z n).onVent z (VentZone.moved n)) :=
    (((does_leaveShaft s z o).mono rfl).trans ((does_joinShaft _ z n).mono rfl)).trans ((does_onVent _ z _).mono rfl)
  unfold State.moveZone
  dsimp only
  refine .ite (fun _ => h) fun _ => ?_
  exact ((h.trans ((does_onVent _ z _).mono rfl)).trans (does_recomputeOption _ o)).trans (does_recomputeFor _ z)

theorem does_storeZone (s : State) (z : Nat) (old new : ZoneEntry) : Does .zoned s (s.storeZone z old new) := by
  have h0 : Does .zoned s { s with zones := s.zones.adjust z fun _ => new } := (does_zone_adjust s z _).mono rfl
  have h1 : ∀ t, Does .zoned t (if old.shaft ≠ new.shaft then t.moveZone z old.shaft new.shaft
      else if old.baseFlow ≠ new.baseFlow ∧ !t.inSmoke then (t.onVent z (t.figured z)).recomputeFor z else t) := fun t =>
    .ite (fun _ => (does_moveZone _ _ _ _).mono rfl) fun _ =>
      .ite (fun _ => ((does_onVent t z _).mono rfl).trans ((does_recomputeFor _ z).mono rfl)) fun _ => .refl t
  unfold State.storeZone
  dsimp only
  split
  · exact .ite (fun _ => (h0.trans (h1 _)).trans ((does_writeSmokeJet _ _ _).mono rfl)) fun _ => h0.trans (h1 _)
  · exact h0.trans (h1 _)

theorem serves_setZone (z l k : Byte) (f : BitVec 16) (s : State) : Serves .zoned s (serveSetZone z l k f s) := by
  unfold serveSetZone
  split
  · exact .refused _ _
  · exact .demand _ _ (.demand _ _ (.demand _ _ (.served _ (does_storeZone _ _ _ _))))

theorem does_storeBay (s : State) (b : Nat) (old : Bay) (k : BayKind) (f : Bool) :
    Does .holdEnd s (s.storeBay b old k f) := by
  have h : Does .holdEnd s (s.writeBay b fun r => { r with kind := k, outOfUse := f }) :=
    (does_writeBay s b _ (by intro _; rfl)).mono rfl
  unfold State.storeBay
  dsimp only
  split
  · exact .ite (fun _ => h.trans (does_endHold _ _ _)) fun _ => h
  · exact h

theorem serves_setBay (b : BitVec 16) (k f : Byte) (s : State) : Serves .holdEnd s (serveSetBay b k f s) := by
  unfold serveSetBay
  split
  · exact .served _ (does_storeBay _ _ _ _ _)
  · exact .refused _ _

theorem does_routes (s : State) (t : Table (List Nat)) (h : s.routes.rising = true → t.rising = true) :
    Does { tables := true } s { s with routes := t } := by
  refine .of_plain ?_ rfl rfl rfl rfl ?_
  · constructor <;> intros <;> first | rfl | contradiction
  · intro w
    simp only [State.tablesRising, Bool.and_eq_true] at w ⊢
    simp only [State.nodesRising] at w ⊢
    simp [w, h]

theorem does_entryRamps (s : State) (t : Table (List Nat)) (h : s.entryRamps.rising = true → t.rising = true) :
    Does { tables := true } s { s with entryRamps := t } := by
  refine .of_plain ?_ rfl rfl rfl rfl ?_
  · constructor <;> intros <;> first | rfl | contradiction
  · intro w
    simp only [State.tablesRising, Bool.and_eq_true] at w ⊢
    simp only [State.nodesRising] at w ⊢
    simp [w, h]

theorem does_exitRamps (s : State) (t : Table (List Nat)) (h : s.exitRamps.rising = true → t.rising = true) :
    Does { tables := true } s { s with exitRamps := t } := by
  refine .of_plain ?_ rfl rfl rfl rfl ?_
  · constructor <;> intros <;> first | rfl | contradiction
  · intro w
    simp only [State.tablesRising, Bool.and_eq_true] at w ⊢
    simp only [State.nodesRising] at w ⊢
    simp [w, h]

theorem does_storeRoute (s : State) (e z : Nat) (zs : List Nat) : Does { tables := true } s (s.storeRoute e z zs) :=
  .ite (fun _ => does_routes s _ (Table.rising_remove _ _)) fun _ => does_routes s _ (Table.rising_put _ _ _)

theorem serves_setRoute (e z : Byte) (zs : List Byte) (s : State) :
    Serves { tables := true } s (serveSetRoute e z zs s) :=
  .demand _ _ (.demand _ _ (.demand _ _ (.demand _ _ (.demand _ _ (.served _ (does_storeRoute _ _ _ _))))))

theorem serves_setRamp (k e : Byte) (zs : List Byte) (s : State) : Serves { tables := true } s (serveSetRamp k e zs s) := by
  unfold serveSetRamp
  refine .demand _ _ ?_
  split
  · exact .demand _ _ (.demand _ _ (.served _ (does_entryRamps s _ (Table.rising_put _ _ _))))
  · exact .demand _ _ (.demand _ _ (.served _ (does_exitRamps s _ (Table.rising_put _ _ _))))
  · exact .refused _ _

theorem serves_setSign (k f : Byte) (zs : List Byte) (s : State) : Serves .sign s (serveSetSign k f zs s) := by
  unfold serveSetSign
  refine .demand _ _ ?_
  split
  · exact .refused _ _
  · refine .demand _ _ (.demand _ _ (.demand _ _ (.served _ ?_)))
    exact ((does_onSign s _ _).mono rfl).trans (does_retarget _ _)

theorem does_replaceRing (s : State) (n : Nat) (o r : List Nat) : Does .recompute s (s.replaceRing n o r) :=
  .ite (fun _ => .refl s) fun _ => does_ringChange s n r

theorem serves_setRing (k : Byte) (zs : List Byte) (s : State) : Serves .recompute s (serveSetRing k zs s) := by
  unfold serveSetRing
  dsimp only
  split
  · exact .refused _ _
  · exact .demand _ _ (.demand _ _ (.served _ (does_replaceRing _ _ _ _)))

theorem serves_setLast (z : Byte) (s : State) : Serves .recompute s (serveSetLast z s) := by
  unfold serveSetLast
  dsimp only
  split
  · exact .refused _ _
  · split
    · exact .refused _ _
    · exact .served _ (does_replaceRing _ _ _ _)

theorem serves_setRotation (k m : Byte) (s : State) : Serves .shaftsOnly s (serveSetRotation k m s) := by
  unfold serveSetRotation
  split
  · exact .served _ (does_onShaft s _ _)
  · exact .refused _ _

/-! ### Zone status -/

/-- What an override of a zone's stage or hold-out touches. -/
def Touch.overriding : Touch := { status := true, segs := true, vent := true, shafts := true }

theorem does_forceStage (s : State) (z : Nat) (v : Option Nat) : Does .overriding s (s.forceStage z v) :=
  .ite (fun _ => .refl s) fun _ => ((does_onStatus s z _).mono rfl).trans ((does_updateZone _ z).mono rfl)

theorem serves_overrideStage (z n : Byte) (s : State) : Serves .overriding s (serveOverrideStage z n s) :=
  .demand _ _ (.demand _ _ (.served _ (does_forceStage _ _ _)))

/-- What an override of a zone's light touches. -/
def Touch.lightForced : Touch := { status := true, segs := true, lights := true }

theorem does_forceLight (s : State) (z : Nat) (v : Option Nat) : Does .lightForced s (s.forceLight z v) :=
  .ite (fun _ => .refl s) fun _ => ((does_onStatus s z _).mono rfl).trans ((does_relight _ z).mono rfl)

theorem serves_overrideLight (z n : Byte) (s : State) : Serves .lightForced s (serveOverrideLight z n s) :=
  .demand _ _ (.demand _ _ (.served _ (does_forceLight _ _ _)))

theorem does_writeHoldOut (s : State) (z : Nat) (v : Bool) : Does .overriding s (s.writeHoldOut z v) :=
  .ite (fun _ => .refl s) fun _ => ((does_onStatus s z _).mono rfl).trans ((does_updateZone _ z).mono rfl)

theorem serves_holdOut (z f : Byte) (s : State) : Serves .overriding s (serveHoldOut z f s) := by
  unfold serveHoldOut
  refine .demand _ _ ?_
  split
  · exact .refused _ _
  · exact .demand _ _ (.served _ (does_writeHoldOut _ _ _))

theorem serves_closeZone (z : Byte) (s : State) : Serves .closure s (serveCloseZone z s) :=
  .demand _ _ (.served _ (does_addCause _ _ _))

theorem serves_openZone (z : Byte) (s : State) : Serves .closure s (serveOpenZone z s) :=
  .demand _ _ (.served _ (does_removeCause _ _ _))

theorem serves_supply (c : Byte) (s : State) : Serves .supplied s (serveSupply c s) := by
  unfold serveSupply
  split
  · exact .refused _ _
  · exact .served _ (does_setSupply _ _)

theorem does_takeSmoke (s : State) (l : Nat) : Does .smoky s (s.takeSmoke l) := by
  unfold State.takeSmoke
  split
  · exact does_smokeEntry _ _
  · exact .ite (fun _ => .refl s) fun _ => does_fireLevelChange _ _

theorem serves_smoke (l : Byte) (s : State) : Serves .smoky s (serveSmoke l s) :=
  .demand _ _ (.served _ (does_takeSmoke _ _))

theorem serves_smokeClear (s : State) : Serves .smoky s (serveSmokeClear s) :=
  .served _ (.ite (fun _ => does_smokeClearing s) fun _ => .refl s)

/-! ### Administration and notices -/

theorem Serves.withPort {k : Touch} {s : State} {next : Port → Served} (n : Byte) (h : ∀ q, Serves k s (next q)) :
    Serves k s (withPort n next) := by
  unfold Machine.withPort
  split
  · exact h _
  · exact .refused _ _

theorem does_storeRights (s : State) (q : Port) (r : Rights) : Does .taking s (s.storeRights q r) := by
  unfold State.storeRights
  dsimp only
  exact .ite (fun _ => ((does_onPort s q _).mono rfl).trans ((does_lapseEnds _).mono rfl))
    fun _ => (does_onPort s q _).mono rfl

theorem serves_setRights (n r : Byte) (s : State) : Serves .taking s (serveSetRights n r s) :=
  .withPort n fun _ => .demand _ _ (.demand _ _ (.served _ (does_storeRights _ _ _)))

theorem serves_lockRights (n : Byte) (s : State) : Serves .portsOnly s (serveLockRights n s) :=
  .withPort n fun q => .served _ (does_onPort s q _)

theorem serves_setRouting (n c : Byte) (s : State) : Serves .noticesOnly s (serveSetRouting n c s) :=
  .withPort n fun q => .served _ (does_onNotice s q _ fun _ h => h)

theorem serves_setNoticeMask (p : Port) (c : Byte) (s : State) : Serves .noticesOnly s (serveSetNoticeMask p c s) :=
  .served _ (does_onNotice s p _ fun _ _ => NoticeRecord.sound_reevaluate _)

theorem serves_setAutoAck (p : Port) (c : Byte) (s : State) : Serves .noticesOnly s (serveSetAutoAck p c s) := by
  unfold serveSetAutoAck
  split
  · exact .refused _ _
  · exact .served _ (does_onNotice s p _ fun _ h => h)

theorem serves_pollNotice (p : Port) (s : State) : Serves .noticesOnly s (servePollNotice p s) := by
  unfold servePollNotice
  split
  · exact .answers _ _
  · exact .served _ (does_onNotice s p _ fun _ _ => NoticeRecord.sound_reevaluate _)

theorem does_acknowledge (s : State) (p : Port) (c : Option NoticeClass) : Does .noticesOnly s (s.acknowledge p c) := by
  cases c with
  | none => exact .refl s
  | some c => exact does_onNotice s p _ fun _ _ => NoticeRecord.sound_reevaluate _

theorem serves_ackNotice (p : Port) (c : Option Byte) (s : State) : Serves .noticesOnly s (serveAckNotice p c s) := by
  unfold serveAckNotice
  split
  · exact .served _ (does_acknowledge _ _ _)
  · split
    · exact .refused _ _
    · exact .served _ (does_acknowledge _ _ _)

end Sys2Proof.Machine
end

