-- ==== Sys2Proof/Laws/Effects.lean ====
section
/-! SUPPORT. What the shared operations make of the one record they act on. -/

namespace Sys2Proof.Machine

variable {α β : Type}

/-! ### Tables and folds -/

/-- What holds at the start of a fold and is kept by each of its items holds at its end. -/
theorem forAll_induct {P : State → Prop} (f : State → α → State) (xs : List α) (s : State) (h0 : P s)
    (h : ∀ t x, x ∈ xs → P t → P (f t x)) : P (s.forAll xs f) := by
  induction xs generalizing s with
  | nil => exact h0
  | cons x xs ih =>
    exact ih (f s x) (h s x (by simp) h0) fun t y hy => h t y (by simp [hy])

theorem forAll_cons (f : State → α → State) (x : α) (xs : List α) (s : State) :
    s.forAll (x :: xs) f = (f s x).forAll xs f := rfl

theorem forAll_nil (f : State → α → State) (s : State) : s.forAll [] f = s := rfl

theorem Table.adjust_none (t : Table α) (k : Nat) (f : α → α) (h : t.look k = none) : t.adjust k f = t := by
  induction t with
  | nil => rfl
  | cons e t ih =>
    obtain ⟨j, v⟩ := e
    simp only [Table.look] at h
    split at h
    · cases h
    · rename_i hj
      simp only [Table.adjust, hj, if_false, ih h]

theorem Table.adjust_id (t : Table α) (k : Nat) (f : α → α) (h : ∀ v, t.look k = some v → f v = v) : t.adjust k f = t := by
  induction t with
  | nil => rfl
  | cons e t ih =>
    obtain ⟨j, v⟩ := e
    simp only [Table.look] at h
    simp only [Table.adjust]
    split
    · rename_i hj; rw [h v (by simp [hj])]
    · rename_i hj; rw [ih fun w hw => h w (by simp [hj, hw])]

/-! ### Bays -/

theorem writeBay_bays (s : State) (b : Nat) (f : Bay → Bay) : (s.writeBay b f).bays = s.bays.adjust b f := by
  unfold State.writeBay
  split
  · rename_i h; exact (Table.adjust_none _ _ _ h).symm
  · rfl

theorem writeBay_look (s : State) (b b' : Nat) (f : Bay → Bay) :
    (s.writeBay b f).bays.look b' = (s.bays.look b').map fun r => if b' = b then f r else r := by
  rw [writeBay_bays, Table.look_adjust]
  split
  · rename_i h; subst h; simp
  · rename_i h; simp

/-! ### Lights -/

theorem relight_look (s : State) (z z' : Nat) :
    (s.relight z).lights.look z' = (s.lights.look z').map fun l => if z' = z then s.lit z l else l := by
  unfold State.relight
  split
  · rename_i h
    by_cases hz : z' = z
    · subst hz; simp [h]
    · simp [hz]
  · rename_i l h
    have : ((s.onLight z (s.lit z)).writeLamp z (s.lit z l).level).lights = (s.onLight z (s.lit z)).lights :=
      (does_writeLamp _ _ _).keeps.lights rfl
    rw [this, State.onLight_lights, Table.look_adjust]
    by_cases hz : z' = z
    · subst hz; simp
    · simp [hz]

/-- The fields of a lighting record that a level found afresh leaves alone. -/
def LightZone.sameState (a b : LightZone) : Prop :=
  a.state = b.state ∧ a.deadline = b.deadline ∧ a.escorts = b.escorts ∧ a.failed = b.failed

theorem lit_sameState (s : State) (z : Nat) (l : LightZone) : (s.lit z l).sameState l := ⟨rfl, rfl, rfl, rfl⟩

theorem relight_sameState (s : State) (z z' : Nat) (l : LightZone) (h : s.lights.look z' = some l) :
    ∃ l', (s.relight z).lights.look z' = some l' ∧ l'.sameState l := by
  rw [relight_look, h]
  refine ⟨_, rfl, ?_⟩
  split
  · exact lit_sameState _ _ _
  · exact ⟨rfl, rfl, rfl, rfl⟩

theorem movement_look (s : State) (z z' : Nat) :
    (s.movement z).lights.look z' = (s.lights.look z').map fun l =>
      if z' = z then (s.onLight z fun l => { l with state := .active, deadline := some (s.timebase + s.activeHold) }).lit z
        { l with state := .active, deadline := some (s.timebase + s.activeHold) } else l := by
  unfold State.movement
  rw [relight_look, State.onLight_lights, Table.look_adjust]
  by_cases hz : z' = z
  · subst hz; simp [Function.comp_def]
  · simp [hz]

/-- A zone that a light record shows ACTIVE with a deadline one active hold from now. -/
def State.lively (s : State) (z : Nat) : Prop :=
  ∀ l, s.lights.look z = some l → l.state = .active ∧ l.deadline = some (s.timebase + s.activeHold)

theorem movement_lively (s : State) (z : Nat) : (s.movement z).lively z := by
  intro l h
  have k := (does_movement s z).keeps
  rw [movement_look] at h
  simp only [if_true, Option.map_eq_some_iff] at h
  obtain ⟨m, _, rfl⟩ := h
  refine ⟨rfl, ?_⟩
  simp only [State.lit, State.activeHold, State.sp, k.timebase rfl, k.setpoints rfl]

theorem lively_relight (s : State) (z y : Nat) (h : s.lively z) : (s.relight y).lively z := by
  intro l hl
  have k := (does_relight s y).keeps
  rw [relight_look] at hl
  simp only [Option.map_eq_some_iff] at hl
  obtain ⟨m, hm, rfl⟩ := hl
  have := h m hm
  simp only [State.activeHold, State.sp, k.timebase rfl, k.setpoints rfl]
  split
  · exact this
  · exact this

/-! ### Notices -/

theorem setHas_setAdd (x : Byte) (c d : NoticeClass) : setHas (setAdd x c) d = (setHas x d || d == c) := by
  cases c <;> cases d <;> simp [setHas, setAdd, NoticeClass.bit, NoticeClass.priority]

theorem setHas_setDrop (x : Byte) (c d : NoticeClass) : setHas (setDrop x c) d = (setHas x d && d != c) := by
  cases c <;> cases d <;> simp [setHas, setDrop, NoticeClass.bit, NoticeClass.priority]

theorem NoticeRecord.raise_pending (c d : NoticeClass) (r : NoticeRecord) :
    setHas (r.raise c).pending d = (setHas r.pending d || (d == c && setHas r.routing c)) := by
  unfold NoticeRecord.raise
  split
  · rename_i h; simp [NoticeRecord.reevaluate, setHas_setAdd, h]
  · rename_i h; simp [h]

theorem NoticeRecord.raise_routing (c : NoticeClass) (r : NoticeRecord) : (r.raise c).routing = r.routing := by
  unfold NoticeRecord.raise; split <;> rfl

/-- A class that is raised stands pending at every port that routes it. -/
theorem raise_pends (s : State) (c : NoticeClass) (p : Port) (h : setHas (s.notices.at p).routing c = true) :
    setHas ((s.raise c).notices.at p).pending c = true := by
  simp [State.raise, NoticeRecord.raise_pending, h]

end Sys2Proof.Machine
end

