-- ==== Sys2Proof/Laws/StartUp.lean ====
section
/-! SUPPORT. The forms that the part keeps hold after a cold reset, at the installation of the tables, in
SAFE and after a warm restart. -/

namespace Sys2Proof.Machine

/-- The forms the part keeps, together. -/
structure Formed (s : State) : Prop where
  lines  : s.linesSound = true
  counts : s.countsSound = true
  ends   : s.endsSound = true
  rising : s.tablesRising = true
  jets   : oneJet s.drives

theorem Does.formed {k : Touch} {s t : State} (h : Does k s t) (f : Formed s) : Formed t :=
  ⟨h.lines f.lines, h.counts f.counts, h.ends f.ends, h.rising f.rising, oneJet_of_duties h.duties f.jets⟩

theorem formed_pending (s : State) (q : List Instr) (h : Formed s) : Formed { s with pending := q } :=
  ⟨h.lines, h.counts, h.ends, h.rising, h.jets⟩

theorem formed_reset : Formed State.reset :=
  ⟨by decide, by decide, by decide, by decide, fun _ _ _ _ _ h => by cases h⟩

theorem formed_coldReset (s : State) : Formed s.coldReset :=
  ⟨formed_reset.lines, formed_reset.counts, formed_reset.ends, formed_reset.rising, formed_reset.jets⟩

/-- A record with nothing pending and its line released is sound. -/
theorem NoticeRecord.sound_quiet (r : NoticeRecord) (h : r.pending = 0) (w : r.line = false) : r.sound = true := by
  have hq : ∀ c, qualifies r c = false := by intro c; simp [qualifies, setHas, h]
  have hn : topQualifying r = none := by simp [topQualifying, List.find?_eq_none, hq]
  simp [NoticeRecord.sound, hn, w]

/-- A table of bays none of which is FREE has no free count. -/
theorem countsOf_none (t : Table Bay) (z : Nat) (h : ∀ e ∈ t, e.2.occ ≠ .free) : countsOf t z = ⟨0, 0, 0, 0⟩ := by
  have key : ∀ k, countFree t z k = 0 := by
    intro k
    simp only [countFree, List.length_eq_zero_iff, List.filter_eq_nil_iff]
    intro e he
    simp [Bay.counted, h e he]
  simp [countsOf, key]

theorem formed_warmRestart (s : State) (h : Formed s) : Formed s.warmRestart := by
  have hb : Formed { s.blocksRestarted with vent := s.blocksRestarted.vent.each s.blocksRestarted.ventRestarted } := by
    refine ⟨?_, ?_, ?_, ?_, oneJet_of_duties (by simp [State.blocksRestarted, Table.each, duties, Function.comp_def]) h.jets⟩
    · refine (Quad.all_iff _ _).2 fun p => ?_
      simp only [State.blocksRestarted, Quad.at_each]
      exact NoticeRecord.sound_quiet _ rfl rfl
    · rw [countsSound_iff]
      intro e he
      simp only [State.blocksRestarted, Table.each, List.mem_map] at he
      obtain ⟨d, _, rfl⟩ := he
      symm
      refine countsOf_none _ _ ?_
      intro b hb
      simp only [State.blocksRestarted, Table.each, List.mem_map] at hb
      obtain ⟨d, _, rfl⟩ := hb
      simp [Bay.restarted]
    · refine (Quad.all_iff _ _).2 fun p => ?_
      simp [State.blocksRestarted]
    · have hr := h.rising
      simp only [State.tablesRising, Bool.and_eq_true] at hr ⊢
      simp only [State.nodesRising, State.blocksRestarted] at hr ⊢
      simp only [Table.rising_each, hr, and_true, true_and]
      refine ⟨?_, rfl⟩
      simp only [Table.each, List.all_map, List.all_eq_true, Function.comp] at hr ⊢
      intro e he
      split
      · simpa [Segment.restarted, Segment.startDiscovery] using hr.1.1.1.1.1.1.1.1.1.1.1.1.2 e he
      · exact hr.1.1.1.1.1.1.1.1.1.1.1.1.2 e he
  exact ((does_relightAll _).formed hb |> (does_retargetAll _).formed)

theorem formed_enterSafe (s : State) (why : Rejection) (h : Formed s) : Formed (s.enterSafe why) := by
  refine ⟨h.lines, h.counts, h.ends, ?_, h.jets⟩
  have hr := h.rising
  simp only [State.tablesRising, Bool.and_eq_true] at hr ⊢
  simp only [State.nodesRising, State.enterSafe] at hr ⊢
  simp only [Table.rising_each, hr, and_true, true_and]
  simp only [Table.each, List.all_map, List.all_eq_true]
  intro e _
  rfl

end Sys2Proof.Machine
end

