-- ==== Sys2Proof/Laws/Image.lean ====
section
/-! SUPPORT. What the image reader gives: tables in canonical form, every record cold, and at most one JET drive for a
zone; and the forms the part keeps at the installation of the tables. -/

namespace Sys2Proof.Machine

/-- A read of the image asks for the header, and then at most for the rest of a length of 32 or more (R18). -/
theorem imageReads_cases (r : ImageRead) :
    imageReads r = [headerRead] ∨ ∃ length, 32 ≤ length ∧ imageReads r = [headerRead, restRead length] := by
  unfold imageReads
  split
  · split
    · exact .inl rfl
    · rename_i h
      exact .inr ⟨_, by omega, rfl⟩
  · exact .inl rfl

/-- The form of what an image gives. -/
structure Site.Formed (s : Site) : Prop where
  zones      : s.zones.rising = true
  shafts     : s.shafts.rising = true
  drives     : s.drives.rising = true
  gas        : s.gas.rising = true
  lamps      : s.lamps.rising = true
  bays       : s.bays.rising = true
  routes     : s.routes.rising = true
  entryRamps : s.entryRamps.rising = true
  exitRamps  : s.exitRamps.rising = true
  signs      : s.signs.rising = true
  bayCold    : ∀ e ∈ s.bays, e.2 = .cold e.2.zone e.2.kind e.2.seg e.2.addr e.2.slot e.2.outOfUse
  gasCold    : ∀ e ∈ s.gas, e.2.reading = none ∧ e.2.status = none
  driveCold  : ∀ e ∈ s.drives, e.2 = .cold e.2.duty e.2.seg e.2.addr
  shaftCold  : ∀ e ∈ s.shafts, e.2 = ⟨e.2.mode, e.2.ring, [], 0, 0, 0, 0⟩
  signCold   : ∀ e ∈ s.signs, e.2 = .cold e.2.seg e.2.addr e.2.filter e.2.zones
  jets       : oneJet s.drives

/-- What a section's reader does: an entry it takes keeps the form. -/
def KeepsForm (read : Site → Nat → List Byte → EntryRead) : Prop :=
  ∀ s n bs i t rest, read s n bs = .entry i (some t) rest → s.Formed → t.Formed

theorem guarded_some {α : Type} (ok : Bool) (a b : α) (h : guarded ok a = some b) : a = b := by
  unfold guarded at h; split at h <;> simp_all

/-- What a table with a place configured holds. -/
theorem Table.mem_put_value {α : Type} (t : Table α) (k : Nat) (v : α) (e : Nat × α) (h : e ∈ t.put k v) :
    e = (k, v) ∨ e ∈ t := by
  induction t with
  | nil => simpa [Table.put] using h
  | cons d t ih =>
    obtain ⟨j, w⟩ := d
    simp only [Table.put] at h
    split at h
    · simpa using h
    · split at h
      · simp only [List.mem_cons] at h ⊢; tauto
      · simp only [List.mem_cons] at h ⊢
        rcases h with h | h
        · exact .inr (.inl h)
        · rcases ih h with h | h
          · exact .inl h
          · exact .inr (.inr h)

/-- What every entry of a table has, every entry has with one more that has it. -/
theorem Table.all_put {α : Type} {P : Nat × α → Prop} (t : Table α) (k : Nat) (v : α) (hv : P (k, v)) (h : ∀ e ∈ t, P e) :
    ∀ e ∈ t.put k v, P e := by
  intro e he
  rcases Table.mem_put_value _ _ _ _ he with rfl | he
  · exact hv
  · exact h e he

theorem Table.mem_of_look {α : Type} {t : Table α} {k : Nat} {v : α} (h : t.look k = some v) : (k, v) ∈ t := by
  induction t with
  | nil => cases h
  | cons d t ih =>
    obtain ⟨j, w⟩ := d
    simp only [Table.look] at h
    split at h
    · subst_vars; simp only [Option.some.injEq] at h; simp [h]
    · exact List.mem_cons_of_mem _ (ih h)

/-- A drive added whose zone, if it is a JET drive, had none. -/
theorem oneJet_put (t : Table Drive) (k : Nat) (x : Drive) (h : oneJet t)
    (hx : ∀ z, x.duty = .jet z → ∀ e ∈ t, e.2.duty ≠ .jet z) : oneJet (t.put k x) := by
  have key : ∀ d y, (t.put k x).look d = some y → (d = k ∧ y = x) ∨ t.look d = some y := by
    intro d y hy
    by_cases e : d = k
    · subst e; rw [Table.look_put_same] at hy; exact .inl ⟨rfl, (Option.some.inj hy).symm⟩
    · rw [Table.look_put_other _ _ _ _ e] at hy; exact .inr hy
  intro d d' y y' z hy hy' hz hz'
  rcases key d y hy with ⟨rfl, rfl⟩ | h1 <;> rcases key d' y' hy' with ⟨rfl, rfl⟩ | h2
  · rfl
  · exact absurd hz' (hx z hz _ (Table.mem_of_look h2))
  · exact absurd hz (hx z hz' _ (Table.mem_of_look h1))
  · exact h d d' y y' z h1 h2 hz hz'

theorem guarded_ok {α : Type} (ok : Bool) (a b : α) (h : guarded ok a = some b) : ok = true := by
  unfold guarded at h; split at h <;> simp_all

theorem keepsForm_zone : KeepsForm readZoneEntry := by
  intro s n bs i t rest h f
  unfold readZoneEntry at h
  split at h
  · simp only [EntryRead.entry.injEq] at h
    obtain ⟨-, h, -⟩ := h
    have := guarded_some _ _ _ h; subst this
    exact { f with zones := Table.rising_put _ _ _ f.zones }
  · cases h

theorem keepsForm_shaft : KeepsForm readShaftEntry := by
  intro s n bs i t rest h f
  unfold readShaftEntry at h
  split at h
  · split at h
    · cases h
    · simp only [EntryRead.entry.injEq] at h
      obtain ⟨-, h, -⟩ := h
      split at h
      · have := guarded_some _ _ _ h; subst this
        exact { f with shafts := Table.rising_put _ _ _ f.shafts, shaftCold := Table.all_put _ _ _ rfl f.shaftCold }
      · cases h
  · cases h

theorem keepsForm_drive : KeepsForm readDriveEntry := by
  intro s n bs i t rest h f
  unfold readDriveEntry at h
  split at h
  · dsimp only at h
    split at h
    · simp only [EntryRead.entry.injEq] at h
      obtain ⟨-, h, -⟩ := h
      have := guarded_some _ _ _ h; subst this
      exact { f with
        drives := Table.rising_put _ _ _ f.drives, driveCold := Table.all_put _ _ _ rfl f.driveCold
        jets := oneJet_put _ _ _ f.jets fun _ h => by cases h }
    · simp only [EntryRead.entry.injEq] at h
      obtain ⟨-, h, -⟩ := h
      have ok := guarded_ok _ _ _ h
      have := guarded_some _ _ _ h; subst this
      simp only [Bool.and_eq_true, decide_eq_true_eq, countWhere, Nat.lt_one_iff, List.length_eq_zero_iff,
        List.filter_eq_nil_iff, beq_iff_eq] at ok
      refine { f with
        drives := Table.rising_put _ _ _ f.drives, driveCold := Table.all_put _ _ _ rfl f.driveCold
        jets := oneJet_put _ _ _ f.jets fun z hz => ?_ }
      cases hz
      exact ok.2.2
    all_goals cases h
  · cases h

theorem keepsForm_gas : KeepsForm readGasEntry := by
  intro s n bs i t rest h f
  unfold readGasEntry at h
  split at h
  · simp only [EntryRead.entry.injEq] at h
    obtain ⟨-, h, -⟩ := h
    split at h
    · have := guarded_some _ _ _ h; subst this
      exact { f with gas := Table.rising_put _ _ _ f.gas, gasCold := Table.all_put _ _ _ ⟨rfl, rfl⟩ f.gasCold }
    · cases h
  · cases h

theorem keepsForm_lamp : KeepsForm readLampEntry := by
  intro s n bs i t rest h f
  unfold readLampEntry at h
  split at h
  · simp only [EntryRead.entry.injEq] at h
    obtain ⟨-, h, -⟩ := h
    have := guarded_some _ _ _ h; subst this
    exact { f with lamps := Table.rising_put _ _ _ f.lamps }
  · cases h

theorem keepsForm_bay : KeepsForm readBayEntry := by
  intro s n bs i t rest h f
  unfold readBayEntry at h
  split at h
  · simp only [EntryRead.entry.injEq] at h
    obtain ⟨-, h, -⟩ := h
    split at h
    · have := guarded_some _ _ _ h; subst this
      exact { f with bays := Table.rising_put _ _ _ f.bays, bayCold := Table.all_put _ _ _ rfl f.bayCold }
    · cases h
  · cases h

theorem keepsForm_route : KeepsForm readRouteEntry := by
  intro s n bs i t rest h f
  unfold readRouteEntry at h
  split at h
  · split at h
    · cases h
    · simp only [EntryRead.entry.injEq] at h
      obtain ⟨-, h, -⟩ := h
      have := guarded_some _ _ _ h; subst this
      exact { f with routes := Table.rising_put _ _ _ f.routes }
  · cases h

theorem keepsForm_ramp : KeepsForm readRampEntry := by
  intro s n bs i t rest h f
  unfold readRampEntry at h
  split at h
  · split at h
    · cases h
    · simp only [EntryRead.entry.injEq] at h
      obtain ⟨-, h, -⟩ := h
      split at h
      · have := guarded_some _ _ _ h; subst this
        exact { f with entryRamps := Table.rising_put _ _ _ f.entryRamps }
      · have := guarded_some _ _ _ h; subst this
        exact { f with exitRamps := Table.rising_put _ _ _ f.exitRamps }
      · cases h
  · cases h

theorem keepsForm_sign : KeepsForm readSignEntry := by
  intro s n bs i t rest h f
  unfold readSignEntry at h
  split at h
  · split at h
    · cases h
    · simp only [EntryRead.entry.injEq] at h
      obtain ⟨-, h, -⟩ := h
      split at h
      · have := guarded_some _ _ _ h; subst this
        exact { f with signs := Table.rising_put _ _ _ f.signs, signCold := Table.all_put _ _ _ rfl f.signCold }
      · cases h
  · cases h

theorem formed_readEntries (sect : Nat) (read : Site → Nat → List Byte → EntryRead) (hk : KeepsForm read) (n : Nat) :
    ∀ o s bs r, readEntries sect read n o s bs = .ok r → s.Formed → r.1.Formed := by
  induction n with
  | zero => intro o s bs r h f; simp only [readEntries, Except.ok.injEq] at h; subst h; exact f
  | succ n ih =>
    intro o s bs r h f
    simp only [readEntries] at h
    split at h
    · cases h
    · cases h
    · rename_i i t rest e
      exact ih _ _ _ _ h (hk _ _ _ _ _ _ e f)

theorem formed_readSection (sect : Nat) (read : Site → Nat → List Byte → EntryRead) (hk : KeepsForm read)
    (s : Site) (bs : List Byte) (r : Site × List Byte) (h : readSection sect read s bs = .ok r) (f : s.Formed) :
    r.1.Formed := by
  unfold readSection at h
  split at h
  · exact formed_readEntries _ _ hk _ _ _ _ _ h f
  · cases h

theorem bind_ok {ε α β : Type} (x : Except ε α) (f : α → Except ε β) (b : β) (h : x >>= f = .ok b) :
    ∃ a, x = .ok a ∧ f a = .ok b := by
  cases x with
  | error e => cases h
  | ok a => exact ⟨a, rfl, h⟩

theorem formed_readTables (s : Site) (bs : List Byte) (t : Site) (h : readTables s bs = .ok t) (f : s.Formed) :
    t.Formed := by
  unfold readTables at h
  obtain ⟨r1, e1, h⟩ := bind_ok _ _ _ h
  obtain ⟨r2, e2, h⟩ := bind_ok _ _ _ h
  obtain ⟨r3, e3, h⟩ := bind_ok _ _ _ h
  obtain ⟨r4, e4, h⟩ := bind_ok _ _ _ h
  obtain ⟨r5, e5, h⟩ := bind_ok _ _ _ h
  obtain ⟨r6, e6, h⟩ := bind_ok _ _ _ h
  obtain ⟨r7, e7, h⟩ := bind_ok _ _ _ h
  obtain ⟨r8, e8, h⟩ := bind_ok _ _ _ h
  obtain ⟨r9, e9, h⟩ := bind_ok _ _ _ h
  obtain ⟨r10, e10, h⟩ := bind_ok _ _ _ h
  have f1 := formed_readSection _ _ keepsForm_zone _ _ _ e1 f
  have f2 := formed_readSection _ _ keepsForm_shaft _ _ _ e2 f1
  have f3 : r3.1.Formed := by
    unfold judgeShafts at e3
    split at e3
    · cases e3
    · simp only [Except.ok.injEq] at e3; subst e3; exact f2
  have f4 := formed_readSection _ _ keepsForm_drive _ _ _ e4 f3
  have f5 := formed_readSection _ _ keepsForm_gas _ _ _ e5 f4
  have f6 := formed_readSection _ _ keepsForm_lamp _ _ _ e6 f5
  have f7 := formed_readSection _ _ keepsForm_bay _ _ _ e7 f6
  have f8 := formed_readSection _ _ keepsForm_route _ _ _ e8 f7
  have f9 := formed_readSection _ _ keepsForm_ramp _ _ _ e9 f8
  have f10 := formed_readSection _ _ keepsForm_sign _ _ _ e10 f9
  split at h
  · simp only [Except.ok.injEq] at h; subst h; exact f10
  · cases h

/-- Every accepted image gives tables in canonical form, with every record cold and at most one JET drive for a zone. -/
theorem imageVerdict_formed (r : ImageRead) (site : Site) (h : imageVerdict r = .accepted site) : site.Formed := by
  have hb : ∀ bs, judgeBody bs = .accepted site → site.Formed := by
    intro bs h
    unfold judgeBody at h
    split at h
    · rename_i s e
      simp only [ImageVerdict.accepted.injEq] at h
      subst h
      unfold readBody at e
      split at e
      · split at e
        · unfold readFrom1 at e
          split at e
          · cases e
          · split at e
            · cases e
            · split at e
              · cases e
              · split at e
                · exact formed_readTables _ _ _ e
                    ⟨rfl, rfl, rfl, rfl, rfl, rfl, rfl, rfl, rfl, rfl, by simp, by simp, by simp, by simp, by simp,
                      fun _ _ _ _ _ h => by cases h⟩
                · cases e
        · cases e
      · cases e
    · cases h
  unfold imageVerdict at h
  split at h
  · split at h
    · dsimp only at h
      split at h
      · cases h
      · split at h
        · cases h
        · split at h
          · exact hb _ h
          · cases h
    · cases h
  · cases h

/-! ### The installation -/

theorem rising_segNodes (site : Site) (i : Nat) : (site.segNodes i).rising = true := by
  unfold Site.segNodes
  have : ∀ (xs : List (Nat × Nat × NodeKind)) (t : Table Node), t.rising = true →
      (xs.foldl (fun t r => t.put r.2.1 (Node.cold r.2.2)) t).rising = true := by
    intro xs
    induction xs with
    | nil => intro t h; exact h
    | cons x xs ih => intro t h; exact ih _ (Table.rising_put _ _ _ h)
  exact this _ _ rfl

theorem segments_formed (site : Site) :
    site.segments.rising = true ∧ (site.segments.all fun e => e.2.nodes.rising) = true := by
  constructor
  · rfl
  · simp only [Site.segments, List.all_map, List.all_eq_true, Function.comp]
    intro i _
    split
    · simpa [Segment.startDiscovery] using rising_segNodes site i
    · rfl

theorem rising_derive {α β : Type} (t : Table α) (f : Nat → α → β) : (derive t f).rising = t.rising :=
  Table.rising_of_places _ _ (by simp [derive, Table.places])

theorem formed_withTables (s : State) (site : Site) (h : Formed s) (f : site.Formed) : Formed (s.withTables site) := by
  refine ⟨?_, ?_, h.ends, ?_, f.jets⟩
  · refine (Quad.all_iff _ _).2 fun p => ?_
    cases p <;> exact NoticeRecord.sound_quiet _ rfl rfl
  · rw [countsSound_iff]
    intro e he
    simp only [State.withTables, State.installZones, derive, List.mem_map] at he
    obtain ⟨d, _, rfl⟩ := he
    symm
    refine countsOf_none _ _ ?_
    intro b hb
    rw [f.bayCold b hb]
    simp [Bay.cold]
  · have hr := h.rising
    obtain ⟨g1, g2⟩ := segments_formed site
    simp only [State.tablesRising, Bool.and_eq_true] at hr ⊢
    simp only [State.nodesRising, State.withTables, State.installZones, rising_derive] at hr ⊢
    simp only [f.zones, f.shafts, f.drives, f.gas, f.lamps, f.bays, f.routes, f.entryRamps, f.exitRamps, f.signs, g1, g2, and_self]
    simp [hr]

theorem formed_install (s : State) (site : Site) (h : Formed s) (f : site.Formed) : Formed (s.install site) := by
  have h1 := formed_withTables s site h f
  have h2 := (does_relightAll _).formed h1
  have h3 := (does_retargetAll _).formed h2
  exact (does_checkRun _).formed h3

end Sys2Proof.Machine
end

