-- ==== Sys2Proof/Laws/PerInstr.lean ====
section
/-! SUPPORT. The per-instruction family RequestFits: the body of a well-formed request, its code byte and its
argument bytes, fits the 1 to 256 bytes that a station frame carries (Table 10-2). -/

namespace Sys2Proof.Laws.RequestFits

/-- The code and the arguments of the request that a command encodes to fit one frame's body. -/
def Statement (i : Instr) : Prop :=
  ∀ p code args, i.wellFormed = true → encodeRequest i = some (p, code, args) → 1 + args.length ≤ 256

theorem pairBytes_length (pairs : List (Byte × BitVec 16)) : (pairBytes pairs).length = 3 * pairs.length := by
  induction pairs with
  | nil => rfl
  | cons p ps ih =>
    have h : pairBytes (p :: ps) = p.1 :: (wordBytes p.2 ++ pairBytes ps) := rfl
    rw [h, List.length_cons, List.length_append, ih, List.length_cons]
    simp [wordBytes]
    omega

/-- A command that is no request encodes to nothing. -/
theorem of_none (i : Instr) (h : encodeRequest i = none) : Statement i := by
  intro p code args _ e
  rw [h] at e
  cases e

/-- A request whose arguments are known fits if they do. -/
theorem of_some (i : Instr) (q : Port) (c : Byte) (bs : List Byte) (h : encodeRequest i = some (q, c, bs))
    (w : i.wellFormed = true → 1 + bs.length ≤ 256) : Statement i := by
  intro p code args hw e
  rw [h] at e
  cases e
  exact w hw

theorem coldReset : Statement .coldReset :=
  of_none _ rfl

theorem resetReleased : Statement .resetReleased :=
  of_none _ rfl

theorem imageReadDone (read : ImageRead) : Statement (.imageReadDone read) :=
  of_none _ rfl

theorem secondEvent : Statement .secondEvent :=
  of_none _ rfl

theorem minuteClose : Statement .minuteClose :=
  of_none _ rfl

theorem settleInComplete (bay : Nat) : Statement (.settleInComplete bay) :=
  of_none _ rfl

theorem settleOutComplete (bay : Nat) : Statement (.settleOutComplete bay) :=
  of_none _ rfl

theorem holdExpiry : Statement .holdExpiry :=
  of_none _ rfl

theorem activeDeadline (zone : Nat) : Statement (.activeDeadline zone) :=
  of_none _ rfl

theorem standbyDeadline (zone : Nat) : Statement (.standbyDeadline zone) :=
  of_none _ rfl

theorem sensorGraceExpiry (zone : Nat) : Statement (.sensorGraceExpiry zone) :=
  of_none _ rfl

theorem overrideLapse : Statement .overrideLapse :=
  of_none _ rfl

theorem wakeActiveEnd (seg : Fin 8) : Statement (.wakeActiveEnd seg) :=
  of_none _ rfl

theorem wakeEnd (seg : Fin 8) : Statement (.wakeEnd seg) :=
  of_none _ rfl

theorem rollCallSent (seg : Fin 8) : Statement (.rollCallSent seg) :=
  of_none _ rfl

theorem pollSent (seg : Fin 8) : Statement (.pollSent seg) :=
  of_none _ rfl

theorem setSent (seg : Fin 8) : Statement (.setSent seg) :=
  of_none _ rfl

theorem probeDue (seg : Fin 8) : Statement (.probeDue seg) :=
  of_none _ rfl

theorem goodPollReply (seg : Fin 8) (frame : List Byte) : Statement (.goodPollReply seg frame) :=
  of_none _ rfl

theorem goodSetReply (seg : Fin 8) (frame : List Byte) : Statement (.goodSetReply seg frame) :=
  of_none _ rfl

theorem validRollCallReply (seg : Fin 8) (frame : List Byte) : Statement (.validRollCallReply seg frame) :=
  of_none _ rfl

theorem replyWrongKind (seg : Fin 8) (frame : List Byte) : Statement (.replyWrongKind seg frame) :=
  of_none _ rfl

theorem replyBadFrame (seg : Fin 8) (frame : List Byte) : Statement (.replyBadFrame seg frame) :=
  of_none _ rfl

theorem replyGap (seg : Fin 8) : Statement (.replyGap seg) :=
  of_none _ rfl

theorem replyTimeout (seg : Fin 8) : Statement (.replyTimeout seg) :=
  of_none _ rfl

theorem hangDetected (seg : Fin 8) : Statement (.hangDetected seg) :=
  of_none _ rfl

theorem hungIdleTest (seg : Fin 8) (idle : Bool) : Statement (.hungIdleTest seg idle) :=
  of_none _ rfl

theorem hungNodeLoss (seg : Fin 8) : Statement (.hungNodeLoss seg) :=
  of_none _ rfl

theorem pacingIntervalEnd (sign : Nat) : Statement (.pacingIntervalEnd sign) :=
  of_none _ rfl

theorem stationBadLength (port : Port) (length : BitVec 16) : Statement (.stationBadLength port length) :=
  of_none _ rfl

theorem stationGapTimeout (port : Port) : Statement (.stationGapTimeout port) :=
  of_none _ rfl

theorem discardQuietEnd (port : Port) : Statement (.discardQuietEnd port) :=
  of_none _ rfl

theorem stationFrameComplete (port : Port) (frame : List Byte) : Statement (.stationFrameComplete port frame) :=
  of_none _ rfl

theorem replySent (port : Port) : Statement (.replySent port) :=
  of_none _ rfl

theorem readStatus (port : Port) : Statement (.readStatus port) :=
  of_some _ _ _ _ rfl fun _ => by simp

theorem readOptions (port : Port) : Statement (.readOptions port) :=
  of_some _ _ _ _ rfl fun _ => by simp

theorem readZone (port : Port) (zone : Byte) : Statement (.readZone port zone) :=
  of_some _ _ _ _ rfl fun _ => by simp

theorem readFreeCounts (port : Port) : Statement (.readFreeCounts port) :=
  of_some _ _ _ _ rfl fun _ => by simp

theorem readBays (port : Port) (zone start : Byte) : Statement (.readBays port zone start) :=
  of_some _ _ _ _ rfl fun _ => by simp

theorem readHolds (port : Port) (start : Byte) : Statement (.readHolds port start) :=
  of_some _ _ _ _ rfl fun _ => by simp

theorem readHoldEnds (port : Port) : Statement (.readHoldEnds port) :=
  of_some _ _ _ _ rfl fun _ => by simp

theorem readShaft (port : Port) (shaft : Byte) : Statement (.readShaft port shaft) :=
  of_some _ _ _ _ rfl fun _ => by simp

theorem readNode (port : Port) (seg address : Byte) : Statement (.readNode port seg address) :=
  of_some _ _ _ _ rfl fun _ => by simp

theorem readSegment (port : Port) (seg : Byte) : Statement (.readSegment port seg) :=
  of_some _ _ _ _ rfl fun _ => by simp

theorem readSign (port : Port) (sign : Byte) : Statement (.readSign port sign) :=
  of_some _ _ _ _ rfl fun _ => by simp

theorem readDose (port : Port) (zone : Byte) : Statement (.readDose port zone) :=
  of_some _ _ _ _ rfl fun _ => by simp

theorem entry (port : Port) (point cls : Byte) : Statement (.entry port point cls) :=
  of_some _ _ _ _ rfl fun _ => by simp

theorem exit (port : Port) (point cls : Byte) : Statement (.exit port point cls) :=
  of_some _ _ _ _ rfl fun _ => by simp

theorem requestBay (port : Port) (point cls kind : Byte) : Statement (.requestBay port point cls kind) :=
  of_some _ _ _ _ rfl fun _ => by simp

theorem releaseHold (port : Port) (slot : Byte) (bay : BitVec 16) : Statement (.releaseHold port slot bay) :=
  of_some _ _ _ _ rfl fun _ => by simp [wordBytes]

theorem setSetpoints (port : Port) (pairs : List (Byte × BitVec 16)) : Statement (.setSetpoints port pairs) := by
  refine of_some _ _ _ _ rfl fun w => ?_
  simp only [Instr.wellFormed, pairsOk, decide_eq_true_eq] at w
  simp only [List.length_cons, pairBytes_length]
  omega

theorem setZone (port : Port) (zone level shaft : Byte) (baseFlow : BitVec 16) :
    Statement (.setZone port zone level shaft baseFlow) :=
  of_some _ _ _ _ rfl fun _ => by simp [wordBytes]

theorem setBay (port : Port) (bay : BitVec 16) (kind outOfUse : Byte) : Statement (.setBay port bay kind outOfUse) :=
  of_some _ _ _ _ rfl fun _ => by simp [wordBytes]

theorem setRoute (port : Port) (point target : Byte) (zones : List Byte) : Statement (.setRoute port point target zones) := by
  refine of_some _ _ _ _ rfl fun w => ?_
  simp only [Instr.wellFormed, listOk, decide_eq_true_eq] at w
  simp only [List.length_cons, countedBytes]
  omega

theorem setRamp (port : Port) (pointKind point : Byte) (zones : List Byte) : Statement (.setRamp port pointKind point zones) := by
  refine of_some _ _ _ _ rfl fun w => ?_
  simp only [Instr.wellFormed, listOk, decide_eq_true_eq] at w
  simp only [List.length_cons, countedBytes]
  omega

theorem setSign (port : Port) (sign filter : Byte) (zones : List Byte) : Statement (.setSign port sign filter zones) := by
  refine of_some _ _ _ _ rfl fun w => ?_
  simp only [Instr.wellFormed, listOk, decide_eq_true_eq] at w
  simp only [List.length_cons, countedBytes]
  omega

theorem setRing (port : Port) (shaft : Byte) (zones : List Byte) : Statement (.setRing port shaft zones) := by
  refine of_some _ _ _ _ rfl fun w => ?_
  simp only [Instr.wellFormed, listOk, decide_eq_true_eq] at w
  simp only [List.length_cons, countedBytes]
  omega

theorem setLast (port : Port) (zone : Byte) : Statement (.setLast port zone) :=
  of_some _ _ _ _ rfl fun _ => by simp

theorem setRotation (port : Port) (shaft mode : Byte) : Statement (.setRotation port shaft mode) :=
  of_some _ _ _ _ rfl fun _ => by simp

theorem overrideStage (port : Port) (zone stage : Byte) : Statement (.overrideStage port zone stage) :=
  of_some _ _ _ _ rfl fun _ => by simp

theorem overrideLight (port : Port) (zone level : Byte) : Statement (.overrideLight port zone level) :=
  of_some _ _ _ _ rfl fun _ => by simp

theorem holdOut (port : Port) (zone flag : Byte) : Statement (.holdOut port zone flag) :=
  of_some _ _ _ _ rfl fun _ => by simp

theorem closeZone (port : Port) (zone : Byte) : Statement (.closeZone port zone) :=
  of_some _ _ _ _ rfl fun _ => by simp

theorem openZone (port : Port) (zone : Byte) : Statement (.openZone port zone) :=
  of_some _ _ _ _ rfl fun _ => by simp

theorem supply (port : Port) (code : Byte) : Statement (.supply port code) :=
  of_some _ _ _ _ rfl fun _ => by simp

theorem smoke (port : Port) (level : Byte) : Statement (.smoke port level) :=
  of_some _ _ _ _ rfl fun _ => by simp

theorem smokeClear (port : Port) : Statement (.smokeClear port) :=
  of_some _ _ _ _ rfl fun _ => by simp

theorem setRights (port : Port) (named rights : Byte) : Statement (.setRights port named rights) :=
  of_some _ _ _ _ rfl fun _ => by simp

theorem lockRights (port : Port) (named : Byte) : Statement (.lockRights port named) :=
  of_some _ _ _ _ rfl fun _ => by simp

theorem setRouting (port : Port) (named classes : Byte) : Statement (.setRouting port named classes) :=
  of_some _ _ _ _ rfl fun _ => by simp

theorem setNoticeMask (port : Port) (classes : Byte) : Statement (.setNoticeMask port classes) :=
  of_some _ _ _ _ rfl fun _ => by simp

theorem setAutoAck (port : Port) (code : Byte) : Statement (.setAutoAck port code) :=
  of_some _ _ _ _ rfl fun _ => by simp

theorem restart (port : Port) : Statement (.restart port) :=
  of_some _ _ _ _ rfl fun _ => by simp

theorem pollNotice (port : Port) : Statement (.pollNotice port) :=
  of_some _ _ _ _ rfl fun _ => by simp

theorem ackNotice (port : Port) (cls : Option Byte) : Statement (.ackNotice port cls) := by
  cases cls
  · exact of_some _ _ _ _ rfl fun _ => by simp
  · exact of_some _ _ _ _ rfl fun _ => by simp

theorem stationStartByte (port : Port) : Statement (.stationStartByte port) :=
  of_none _ rfl

theorem requesterFrameEnd (seg : Fin 8) : Statement (.requesterFrameEnd seg) :=
  of_none _ rfl

end Sys2Proof.Laws.RequestFits
end

