-- ==== Sys2Proof/Tests/Slice0.lean ====
section
/-! SUPPORT. Checks of our own work: the ill-formed terms that WellFormed refuses, requests written out from
Table 10-5, the manual's worked cases, single steps of a small site, and a state that meets each statement's
hypotheses. -/

namespace Sys2Proof.Tests

open Sys2Proof Sys2Proof.Machine

-- One theorem at a time: each waits for the kernel, and many at once hold a thread's stack each.
set_option Elab.async false

/-! ### Ill-formed terms, one for each check -/

theorem wf_refuses_zone : (Instr.activeDeadline 64).wellFormed = false := by decide
theorem wf_refuses_bay : (Instr.settleInComplete 2048).wellFormed = false := by decide
theorem wf_refuses_sign : (Instr.pacingIntervalEnd 48).wellFormed = false := by decide
theorem wf_refuses_field_frame : (Instr.goodPollReply 0 (List.replicate 21 0)).wellFormed = false := by decide
theorem wf_refuses_short_station_frame : (Instr.stationFrameComplete .s0 [0xC3, 0, 1, 1]).wellFormed = false := by decide
theorem wf_refuses_long_station_frame : (Instr.stationFrameComplete .s0 (List.replicate 261 0)).wellFormed = false := by
  decide +kernel
theorem wf_refuses_list : (Instr.setRing .s0 0 (List.replicate 254 0)).wellFormed = false := by decide +kernel
theorem wf_refuses_pairs : (Instr.setSetpoints .s0 (List.replicate 85 (0, 0))).wellFormed = false := by decide +kernel
theorem wf_accepts_longest_list : (Instr.setRing .s0 0 (List.replicate 253 0)).wellFormed = true := by decide +kernel

/-! ### Requests written out from Tables 10-2, 10-5 and 10-6 -/

/-- REQUEST BAY is code 22 hexadecimal with entry point, class and wanted kind: DIESEL asking for CHARGER at point 1. -/
theorem decode_request_bay : decodeRequest .s1 0x22 [1, 1, 3] = .request (.requestBay .s1 1 1 3) := by decide
/-- SET SETPOINTS carries a count and (number, two-byte value) pairs: setpoint 7 at 900, 384 hexadecimal. -/
theorem decode_set_setpoints : decodeRequest .s0 0x30 [1, 7, 0x03, 0x84] = .request (.setSetpoints .s0 [(7, 900)]) := by
  decide
/-- SET ZONE carries a zone, a level, a shaft and a setpoint value, the base flow, of two bytes. -/
theorem decode_set_zone :
    decodeRequest .s0 0x31 [1, 1, 0, 0, 5] = .request (.setZone .s0 1 1 0 5)
    ∧ decodeRequest .s0 0x31 [1, 1, 0, 5] = .badLength := by decide
/-- RELEASE HOLD carries a slot and a two-byte bay, the most significant byte first: bay 652. -/
theorem decode_release_hold : decodeRequest .s1 0x23 [17, 0x02, 0x8C] = .request (.releaseHold .s1 17 652) := by decide
/-- SET ROUTE carries an entry point, a target and a counted list. -/
theorem decode_set_route : decodeRequest .s0 0x33 [0, 21, 2, 2, 21] = .request (.setRoute .s0 0 21 [2, 21]) := by decide
/-- ACK NOTICE carries an optional class behind a presence byte. -/
theorem decode_ack_notice :
    decodeRequest .s2 0x71 [1, 4] = .request (.ackNotice .s2 (some 4))
    ∧ decodeRequest .s2 0x71 [0] = .request (.ackNotice .s2 none) := by decide
/-- READ STATUS has no argument, so its frame is five bytes (the manual counts READ HOLD ENDS so). -/
theorem decode_read_status_frame : readStationFrame [0xC3, 0, 1, 0x01, 0xC5] = some ⟨0x01, [], true⟩ := by decide
theorem decode_wrong_check : readStationFrame [0xC3, 0, 1, 0x01, 0xC6] = some ⟨0x01, [], false⟩ := by decide
theorem decode_unknown_command : decodeRequest .s0 0x0D [] = .unknownCommand := by decide
theorem decode_bad_length : decodeRequest .s0 0x03 [] = .badLength ∧ decodeRequest .s0 0x33 [0, 21, 2, 2] = .badLength := by
  decide
/-- No row of the table has bits, so no word spells a command. -/
theorem decode_table_word : decodeTableWord 32 0x12345678 = none := rfl

/-! ### The manual's worked cases -/

/-- R10's worked case: U1 written 900 and dose limit 800, floor light clamped to 50 and raising the standby light. -/
theorem worked_setpoints :
    let sp := writeSetpoints setpointDefaults [(7, 900), (13, 800), (32, 60), (12, 20)]
    (spOf sp 7, spOf sp 8, spOf sp 9, spOf sp 10) = (900, 920, 940, 960) ∧ spOf sp 13 = 800 ∧ spOf sp 14 = 750
    ∧ spOf sp 32 = 50 ∧ spOf sp 33 = 50 ∧ spOf sp 34 = 100 ∧ spOf sp 12 = 30 := by decide
/-- Zone 12's minute: S 640 and I 800 give 680; then 771 gives 702 and 766 gives 718. -/
theorem worked_smoothing : smoothed 4 800 640 = 680 ∧ smoothed 4 771 680 = 702 ∧ smoothed 4 766 702 = 718 := by decide
/-- The two other samples against S 680: 500 gives 635, 681 and 679 are reached by the forced step. -/
theorem worked_forced_step : smoothed 4 500 680 = 635 ∧ smoothed 4 681 680 = 681 ∧ smoothed 4 679 680 = 679 := by decide
/-- A15 is the mean of the non-empty bins, once five are. -/
theorem worked_ring_mean :
    ringMean [some 1040, some 1080, some 1100, some 990, some 1010, none] = some 1044
    ∧ ringMean [some 1040, some 1080, some 1100, some 990, none] = none := by decide
/-- A POLL of a BAY node is 3 requester bytes, and its reply 20 bytes (section 2.3). -/
theorem worked_poll_lengths :
    requesterFrame 11 .poll [] = [11, 2, 13]
    ∧ (replyFrame 11 .poll .bay (.bay (List.replicate 16 .absent))).length = 20 := by decide
/-- S1's REQUEST BAY reply in section 10.3: 16 data bytes make a frame of 22. -/
theorem worked_reply_length : (stationReply 0x22 .ok (List.replicate 16 0)).length = 22 := by decide

/-! ### A small site

Two zones on two levels: zone 0 drains to shaft 0, zone 1 to none. On segment 0: a BAY node 1 with bays 0 and 1 of
zone 0, a GAS node 2, the shaft's drive 3, zone 0's JET drive 4, its LAMP node 5, a SIGN node 6, and a LOST DRIVE
node 62. S0 is the supervisor's port, S1 a lane's, S2 the fire panel's, S3 a view's. -/

def node (kind : NodeKind) (v : Option Setting) : Node :=
  { kind := kind, state := .present, misses := 0, cause := none, commanded := v, confirmed := none, lastReply := none }

def smallNodes : Table Node :=
  [(1, node .bay none), (2, node .gas none), (3, node .drive (some (.percent 30))), (4, node .drive (some (.percent 0))),
   (5, node .lamp (some (.percent 40))), (6, node .sign (some (.display .full))),
   (62, { node .drive (some (.percent 0)) with state := .lost, misses := 3, cause := some .timeout })]

def smallSegment : Segment :=
  { state := .running, phase := .quiet, rollCall := none, lastServed := 0, probePtr := 0, probeDue := false,
    left := true, strays := 0, hangs := 0, nodes := smallNodes }

def smallBay (slot : Nat) : Bay :=
  { zone := 0, kind := .standard, seg := 0, addr := 1, slot := slot, outOfUse := false, occ := .free,
    raw := some .absent, deadline := none, hold := none, glitches := 0 }

def smallAir : AirZone := { AirZone.cold false with smooth := 100, demand := 100 }

def smallLight : LightZone :=
  { state := .standby, deadline := some 900, escorts := 0, level := 40, line := .standby, capped := false, failed := none }

def smallPort (role : Role) : PortRecord := PortRecord.cold.installed role

def smallOptions : Options :=
  { roles := ⟨.supervisor, .lane, .fire, .view⟩, rate := .b57600, silence := .s30, reply := .ms20, segments := 1 }

def small : State :=
  { State.reset with
    part := .run
    rate := .b57600
    timebase := 100
    options := some smallOptions
    levelCount := 2
    setpoints := setpointDefaults
    zones := [(0, ⟨0, some 0, 3⟩), (1, ⟨1, none, 2⟩)]
    lamps := [(0, ⟨0, 0, 5⟩)]
    routes := [(0, [1, 0])]
    entryRamps := [(0, [1])]
    exitRamps := [(3, [1, 0])]
    segs := [(0, smallSegment), (1, .stopped)]
    bays := [(0, smallBay 0), (1, smallBay 1)]
    free := [(0, ⟨2, 0, 0, 0⟩), (1, ⟨0, 0, 0, 0⟩)]
    gas := [(0, ⟨.co, 0, 0, 2, 0, some 10, some .ok⟩)]
    air := [(0, smallAir), (1, smallAir)]
    drives := [(0, ⟨.shaft 0 40, 0, 3, .available, none⟩), (1, ⟨.jet 0, 0, 4, .available, none⟩)]
    vent := [(0, .cold ⟨0, some 0, 3⟩), (1, .cold ⟨1, none, 2⟩)]
    shafts := [(0, ⟨.fixed, [0], [], 40, 40, 0, 0⟩)]
    status := [(0, .cold), (1, .cold)]
    escorts := [(0, 0), (1, 0)]
    signs := [(0, ⟨0, 6, .general, [0], .full, .opened, none, none, none⟩)]
    lights := [(0, smallLight), (1, smallLight)]
    ports := ⟨smallPort .supervisor, smallPort .lane, smallPort .fire, smallPort .view⟩
    notices := ⟨.installed .supervisor, .installed .lane, .installed .fire, .installed .view⟩ }

/-- The state an outcome gives. -/
def after : Host.Outcome State Fault Refusal → State
  | .next t => t
  | _ => State.reset

def segAt (s : State) : Segment := s.seg 0

/-- The small site with its segment changed. -/
def seg (f : Segment → Segment) : State := { small with segs := small.segs.adjust 0 f }

/-- The small site with its segment awaiting a reply. -/
def awaiting (f : FieldFunction) (addr : Nat) (probe : Bool) : State :=
  seg fun g => { g with phase := .awaiting ⟨f, addr, probe, []⟩ }

/-- The small site with bay 0 changed. -/
def bay (f : Bay → Bay) : State := { small with bays := small.bays.adjust 0 f, free := [(0, ⟨1, 0, 0, 0⟩), (1, ⟨0, 0, 0, 0⟩)] }

def smallHold : Hold := ⟨0, 0, 0, .diesel, .s1, 40, 100, [1, 0]⟩

/-- The small site with a live hold in slot 63 on bay 0, its expiry time reached. -/
def held : State :=
  { bay (fun b => { b with hold := some 63 }) with holds := [(63, smallHold)], escorts := [(0, 1), (1, 1)] }

/-- Bay 0 settling in under its hold, its deadline reached. -/
def settlingIn : State :=
  { held with bays := held.bays.adjust 0 fun b => { b with occ := .settlingIn, deadline := some 100, raw := some .present } }

/-- Bay 0 settling out, its deadline reached. -/
def settlingOut : State := bay fun b => { b with occ := .settlingOut, deadline := some 100 }

/-- Smoke mode standing at level 1. -/
def smoking : State := { small with smoke := some 1 }

/-- S0's reply is being sent. -/
def sending : State := small.withPort .s0 fun r => { r with tx := some ⟨[], .b57600⟩ }

/-! ### Single steps -/

theorem step_hold_fulfilled :
    let t := after (exec (.settleInComplete 0) settlingIn)
    t.holds = [] ∧ (t.ends.at .s1).entries = [⟨63, 0, 0, .fulfilled, 60⟩] := by decide +kernel
theorem step_settle_out_credits_unknown :
    ((after (exec (.settleOutComplete 0) settlingOut)).air.look 0).map AirZone.credit = some 60 := by decide +kernel
theorem step_request_bay_takes_slot_0 :
    let t := after (exec (.requestBay .s1 0 1 0) small)
    t.holdPtr = 0 ∧ t.holds.map (fun e => (e.1, e.2.bay, e.2.expiry)) = [(0, 0, 400)] ∧ t.free.look 0 = some ⟨1, 0, 0, 0⟩ := by
  decide +kernel
theorem step_smoke_commands_full :
    let t := after (exec (.smoke .s2 0) held)
    ((t.node 0 3).bind Node.commanded, (t.node 0 4).bind Node.commanded, (t.node 0 5).bind Node.commanded,
        (t.node 0 6).bind Node.commanded)
      = (some (.percent 100), some (.percent 100), some (.percent 100), some (.display .closed)) := by decide +kernel
theorem step_set_zone_clamps :
    let t := after (exec (.setZone .s0 1 1 255 256) small)
    (t.zones.look 1).map ZoneEntry.baseFlow = some 40
    ∧ (t.ports.at .s0).tx = some ⟨stationReply 0x31 .ok [1, 1, 255, 0, 40], .b57600⟩ := by decide +kernel
theorem step_close_zone_shows_closed :
    ((after (exec (.closeZone .s0 0) small)).node 0 6).bind Node.commanded = some (.display .closed) := by decide +kernel
theorem step_set_sign_counts :
    ((after (exec (.setSign .s0 0 0 [0, 1]) small)).node 0 6).bind Node.commanded = some (.display (.count 2)) := by
  decide +kernel
theorem step_override_stage_raises_want :
    ((after (exec (.overrideStage .s0 0 4) small)).vent.look 0).map (fun v => (v.wanted, v.want, v.alloc, v.effective))
      = some (4, 40, some 40, 4) := by decide +kernel
theorem step_supply_restricts :
    ((after (exec (.supply .s0 1) small)).shafts.look 0).map (fun k => (k.rating, k.capacity)) = some (40, 24) := by
  decide +kernel
theorem step_poll_sent_is_the_lowest : (segAt (after (exec (.pollSent 0) small))).phase
    = .sending ⟨.poll, 1, false, [1, 2, 3]⟩ := by decide +kernel
theorem step_probe_goes_to_lost : (segAt (after (exec (.probeDue 0) small))).phase
    = .sending ⟨.rollCall, 62, true, [62, 1, 63]⟩ := by decide +kernel
theorem step_third_miss_loses :
    let s := { awaiting .poll 1 false with segs := (awaiting .poll 1 false).segs.adjust 0 fun g =>
      { g with nodes := g.nodes.adjust 1 fun n => { n with misses := 2, state := .suspect } } }
    let t := after (exec (.replyTimeout 0) s)
    (t.nodeState 0 1, t.bays.map (fun e => e.2.occ), t.free.look 0)
      = (.lost, [.unknown, .unknown], some ⟨0, 0, 0, 0⟩) := by decide +kernel
theorem step_poll_settles_in :
    let f := replyFrame 1 .poll .bay (.bay (.present :: List.replicate 15 .absent))
    ((after (exec (.goodPollReply 0 f) (awaiting .poll 1 false))).bays.look 0).map (fun b => (b.occ, b.deadline))
      = some (.settlingIn, some 110) := by decide +kernel
theorem step_minute_close_decays :
    let s := { small with minuteDue := true, air := [(0, { smallAir with credit := 210 }), (1, smallAir)] }
    ((after (exec .minuteClose s)).air.look 0).map (fun a => (a.credit, a.demand)) = some (157, 257) := by decide +kernel
theorem step_overrun : ((after (exec (.readStatus .s0) sending)).ports.at .s0).overruns = 1 := by decide +kernel
theorem step_without_right : ((after (exec (.closeZone .s1 0) small)).ports.at .s1).tx
    = some ⟨[0x3C, 0, 2, 0x43, 1, 0x82], .b57600⟩ := by decide +kernel

/-! ### States that meet the statements' hypotheses

One theorem for each statement that has hypotheses: a state and operands that meet them together, clause by clause,
at a boundary value of a range where there is one. The statements' own names head the theorems. -/

theorem look_all {α : Type} {P : Nat → α → Prop} :
    ∀ {t : Table α}, (∀ e ∈ t, P e.1 e.2) → ∀ k v, t.look k = some v → P k v
  | [], _, _, _, h => by simp [Table.look] at h
  | (j, w) :: rest, hp, k, v, h => by
    by_cases hk : j = k
    · subst hk
      have : w = v := by simpa [Table.look] using h
      exact this ▸ hp (j, w) (by simp)
    · exact look_all (t := rest) (fun e he => hp e (List.mem_cons_of_mem _ he)) k v (by simpa [Table.look, hk] using h)

theorem witness_StepTakesFrontCommand : State.reset.pending = [] := rfl
theorem witness_ColdResetValues :
    ({ small with resetLow := true } : State).resetLow = true ∧ small.resetLow = false ∧ Instr.secondEvent ≠ .coldReset
    ∧ Instr.secondEvent ≠ .resetReleased := by decide

/-- A body of 26 bytes after the format code and a length of 32, and a sum that is not its check. -/
theorem witness_RejectedImageEntersSafe_header :
    word16 0 0 ≠ 0x5A2E ∧ word16 0x5A 0x2E = 0x5A2E ∧ word16 0 31 < 32 ∧ 32 ≤ word16 0 32
    ∧ word16 0 32 = 6 + (List.replicate 26 (0 : Byte)).length
    ∧ sumNat ([0x5A, 0x2E, 0, 32] ++ List.replicate 26 0) % 65536 ≠ word16 0 0 := by decide
theorem witness_RejectedImageEntersSafe :
    State.reset.resetLow = false ∧ State.reset.part = .loading
    ∧ imageVerdict ⟨false, false, []⟩ = .rejected ⟨.missing, none, none⟩ := by decide
/-- The codes 3 and 4, 38 setpoints and 39, level counts 0, 8 and 9, zones 63 and 64, a level at the count, shafts 7, 8
and 254, one zone entry and two, and a byte left over. -/
theorem witness_RejectedImageEntersSafe_body :
    ([] : List Byte).length < 8 ∧ 3 < (4#8).toNat ∧ (3#8).toNat ≤ 3 ∧ 2 < (3#8).toNat ∧ (2#8).toNat ≤ 2
    ∧ 38 < (39#8).toNat ∧ (38#8).toNat ≤ 38 ∧ (List.replicate 76 (0 : Byte)).length = 2 * (38#8).toNat
    ∧ (List.replicate 75 (0 : Byte)).length < 2 * (38#8).toNat ∧ (0#8).toNat = 0 ∧ 8 < (9#8).toNat ∧ 1 ≤ (8#8).toNat
    ∧ (8#8).toNat ≤ 8 ∧ 1 ≤ word16 0 1 ∧ 2 ≤ word16 0 2 ∧ 64 ≤ (64#8).toNat ∧ (63#8).toNat < 64
    ∧ (3#8).toNat ≤ (3#8).toNat ∧ (2#8).toNat < (3#8).toNat ∧ 8 ≤ (8#8).toNat ∧ (254#8).toNat < 255 ∧ (7#8).toNat < 8
    ∧ [0#8] ≠ [] := by decide

/-- The body of a valid image: options, levels, zones, shafts, drives, channels, lamps, bays, routes, ramps, signs. -/
def body : List Byte :=
  [0, 1, 2, 3, 2, 1, 1, 1] ++ [0] ++ [3]
  ++ [0, 2, 0, 0, 0, 5, 1, 1, 0, 6] ++ [0, 1, 0, 1, 2, 0, 1]
  ++ [0, 2, 0, 0, 0, 3, 0, 60, 1, 1, 0, 4, 0] ++ [0, 1, 0, 0, 0, 0, 2, 0] ++ [0, 1, 0, 0, 0, 5]
  ++ [0, 3, 0, 0, 0, 0, 0, 1, 0, 0, 0, 1, 0, 0, 0, 1, 1, 0, 0, 2, 1, 1, 0, 1, 2, 0]
  ++ [0, 2, 0, 0, 1, 0, 0, 1, 2, 0, 1] ++ [0, 2, 0, 0, 1, 0, 1, 0, 1, 0] ++ [0, 1, 0, 0, 6, 0, 1, 0]
def image : List Byte :=
  let head := [0x5A#8, 0x2E#8] ++ u16 (body.length + 6) ++ body
  head ++ u16 (sumNat head % 65536)

def accepts : ImageVerdict → Bool
  | .accepted _ => true
  | .rejected _ => false
theorem accepts_site : ∀ v : ImageVerdict, accepts v = true → ∃ site, v = .accepted site
  | .accepted site, _ => ⟨site, rfl⟩
/-- The site has a segment in use and one that is not, a zone, a bay, a channel, a drive, a shaft, and a sign with a list. -/
def showsAll : ImageVerdict → Bool
  | .accepted w => w.options.segments.getLsbD 0 && !w.options.segments.getLsbD 1 && (w.zones.look 0).isSome
      && (w.bays.look 0).isSome && (w.gas.look 0).isSome && (w.drives.look 0).isSome && (w.shafts.look 0).isSome
      && (match w.signs.look 0 with
        | some g => g.zones != []
        | none => false)
  | .rejected _ => false
theorem witness_AcceptedImageInstalls :
    State.reset.resetLow = false ∧ State.reset.part = .loading ∧ State.reset.smoke = none
    ∧ (∃ site, imageVerdict ⟨true, true, image⟩ = .accepted site) ∧ showsAll (imageVerdict ⟨true, true, image⟩) = true :=
  ⟨rfl, rfl, rfl, accepts_site _ (by decide +kernel), by decide +kernel⟩

/-- The reader asks for the header, and for the rest where the header is an image's. -/
theorem step_image_reads :
    (after (exec (.imageReadDone ⟨true, true, image⟩) State.reset)).imageBus
      = [⟨0x50#7, [0, 0], 4⟩, ⟨0x50#7, [0, 4], image.length - 4⟩]
    ∧ (after (exec (.imageReadDone ⟨true, true, 0x5B :: image.drop 1⟩) State.reset)).imageBus = [⟨0x50#7, [0, 0], 4⟩]
    ∧ (after (exec .resetReleased (after (exec .coldReset small)))).imageBus = [⟨0x50#7, [0, 0], 4⟩]
    ∧ (after (exec .coldReset small)).imageBus = [] := by decide +kernel

theorem witness_SecondEventAdvances :
    small.resetLow = false ∧ small.part = .run ∧ State.reset.resetLow = false ∧ State.reset.part ≠ .run := by decide
/-- PEAK stands in zone 0 with S below the clear threshold, so that the minute changes it. -/
theorem witness_MinuteCloseTakesEveryZone :
    let s := { small with minuteDue := true, air := small.air.adjust 0 fun a => { a with peak := true } }
    s.resetLow = false ∧ s.part = .run ∧ s.minuteDue = true ∧ s.tablesRising = true ∧ s.zones.has 0 = true
    ∧ s.air.look 0 = some { smallAir with peak := true } ∧ (true && !decide (smallAir.smooth < s.peakClear)) ≠ true
    ∧ (s.vent.look 0).isSome = true ∧ s.status.look 0 = some .cold ∧ s.smoke = none := by decide +kernel

/-- A held bay and an unheld one, each with its deadline reached just now. -/
theorem witness_SettleCompletions_in :
    settlingIn.resetLow = false ∧ settlingIn.part = .run ∧ (100 : Nat) ≤ settlingIn.timebase
    ∧ settlingIn.bays.look 0 = some { smallBay 0 with
        hold := some 63, occ := .settlingIn, deadline := some 100, raw := some .present }
    ∧ settlingIn.holds.look 63 = some smallHold ∧ smallHold.bay = 0
    ∧ (bay fun b => { b with occ := .settlingIn, deadline := some 100 }).bays.look 0
        = some { smallBay 0 with occ := .settlingIn, deadline := some 100 } := by decide +kernel
theorem witness_SettleCompletions_out :
    settlingOut.resetLow = false ∧ settlingOut.part = .run ∧ (100 : Nat) ≤ settlingOut.timebase
    ∧ settlingOut.bays.look 0 = some { smallBay 0 with occ := .settlingOut, deadline := some 100 }
    ∧ settlingOut.air.look 0 = some smallAir ∧ (smallBay 0).hold = none ∧ (smallBay 0).outOfUse = false
    ∧ settlingOut.countsSound = true ∧ settlingOut.zones.has 0 = true ∧ settlingOut.free.has 0 = true
    ∧ settlingOut.signs.look 0 = some ⟨0, 6, .general, [0], .full, .opened, none, none, none⟩ := by decide +kernel
theorem witness_HoldExpiryEndsTheDueHolds :
    held.resetLow = false ∧ held.part = .run ∧ held.tablesRising = true ∧ smallHold.expiry = held.timebase := by
  decide +kernel
theorem witness_EndHoldTakesFiveSteps : held.holds.look 63 = some smallHold ∧ smallHold.route.Nodup := by decide +kernel

/-- Zone 0 in a light state, its deadline `d` above the present. -/
def lit (st : LightState) (d : Nat) : State :=
  { small with lights := small.lights.adjust 0 fun l => { l with state := st, deadline := some (100 + d) } }
theorem witness_LightDeadlines :
    (lit .active 0).resetLow = false ∧ (lit .active 0).part = .run
    ∧ (lit .active 0).lights.look 0 = some { smallLight with state := .active, deadline := some 100 }
    ∧ (lit .standby 0).lights.look 0 = some { smallLight with state := .standby, deadline := some 100 }
    ∧ (lit .active 1).lights.look 0 = some { smallLight with state := .active, deadline := some 101 }
    ∧ (lit .active 1).timebase < 101 ∧ LightState.standby ≠ .active ∧ (lit .active 0).status.look 0 = some .cold
    ∧ (lit .active 0).lampOf 0 = some (0, ⟨0, 0, 5⟩) := by decide +kernel
theorem witness_SensorGraceSetsLoss :
    let s := { small with air := small.air.adjust 0 fun a => { a with lossStart := some 40, graceDue := true } }
    s.resetLow = false ∧ s.part = .run ∧ s.zones.has 0 = true
    ∧ s.air.look 0 = some { smallAir with lossStart := some 40, graceDue := true } ∧ smallAir.loss = false
    ∧ (s.vent.look 0).isSome = true ∧ s.smoke = none := by
  decide +kernel
/-- Every override held in zone 0. -/
theorem witness_LapseClearsOverrides :
    let s := { small with lapseHolds := true, status := [(0, ⟨⟨false, false, false⟩, some 4, some 100, true⟩), (1, .cold)] }
    s.resetLow = false ∧ s.part = .run ∧ s.lapseHolds = true ∧ s.lapse = .watching ∧ s.zones.has 0 = true
    ∧ s.status.look 0 = some ⟨⟨false, false, false⟩, some 4, some 100, true⟩ ∧ some 4 ≠ (none : Option Nat)
    ∧ s.smoke = none ∧ (s.vent.look 0).isSome = true ∧ s.lights.look 0 = some smallLight := by decide +kernel

/-! #### The field segments -/

theorem witness_EnginePhaseCommands :
    small.resetLow = false
    ∧ (seg fun g => { g with phase := .wakeActive }).segs.look 0 = some { smallSegment with phase := .wakeActive }
    ∧ (seg fun g => { g with phase := .wakeIdle }).segs.look 0 = some { smallSegment with phase := .wakeIdle }
    ∧ (seg fun g => { g with phase := .sending ⟨.poll, 1, false, []⟩ }).segs.look 0
        = some { smallSegment with phase := .sending ⟨.poll, 1, false, []⟩ }
    ∧ EnginePhase.quiet ≠ .wakeActive ∧ EnginePhase.quiet ≠ .wakeIdle
    ∧ ∀ tx, EnginePhase.quiet ≠ .sending tx := ⟨rfl, by decide +kernel, by decide +kernel, by decide +kernel, by decide, by decide, by simp⟩
theorem witness_EnginePhaseCommands_pacing :
    ∃ g n, small.resetLow = false ∧ small.signs.look 0 = some g ∧ small.node g.seg g.addr = some n
      ∧ g.pacing = .opened
      ∧ ({ small with signs := small.signs.adjust 0 fun g => { g with pacing := .pacing } } : State).signs.look 0
          = some { g with pacing := .pacing } := ⟨_, _, rfl, rfl, rfl, rfl, rfl⟩

/-- The small site's part in SAFE. -/
def safe : State := { small with part := .safe }

/-- The last address, and a threshold that an earlier attempt has fixed. -/
theorem witness_RollCallsAndProbesAreSent_roll_call :
    let g := { smallSegment with state := .discovering, rollCall := some ⟨62, 1, some 5, []⟩ }
    (seg fun _ => g).resetLow = false ∧ (seg fun _ => g).segs.look 0 = some g ∧ g.phase = .quiet := by decide +kernel
/-- A segment not running, a line in use, no node gone, and node 62 gone with the pointer at 61 and at 62. -/
theorem witness_RollCallsAndProbesAreSent_probe :
    small.resetLow = false ∧ small.part ≠ .safe ∧ smallSegment.nodes.rising = true
    ∧ { smallSegment with state := .recovering }.state ≠ .running
    ∧ { smallSegment with phase := .awaiting ⟨.poll, 1, false, []⟩ }.phase ≠ .quiet
    ∧ (∀ e ∈ smallNodes.remove 62, e.2.state.gone = false)
    ∧ (∃ n, smallSegment.nodes.look 62 = some n ∧ n.state.gone = true)
    ∧ smallSegment.state = .running ∧ smallSegment.phase = .quiet := by
  refine ⟨by decide, by decide, by decide, by decide, by decide, by decide, ⟨_, rfl, rfl⟩, rfl, rfl⟩
/-- Whether a recovery probe may go to an address of the small segment. -/
def gone (s : State) (a : Nat) : Prop :=
  (s.part ≠ .safe ∧ ∃ n, smallSegment.nodes.look a = some n ∧ n.state.gone = true)
  ∨ (s.part = .safe ∧ 1 ≤ a ∧ a ≤ 62 ∧ ¬ smallSegment.cyclesInSafe a)
theorem witness_RollCallsAndProbesAreSent_lowest (ptr : Nat) : nextInTurn ptr 62 (gone small) := by
  refine ⟨.inl ⟨by decide, _, rfl, rfl⟩, ?_⟩
  rintro b (⟨-, m, hm, hg⟩ | ⟨hs, -⟩)
  · have : b = 62 := look_all (P := fun b (m : Node) => m.state.gone = true → b = 62) (by decide) b m hm hg
    omega
  · exact absurd hs (by decide)
/-- In SAFE the GAS node 2 comes after address 1, past no other. -/
theorem witness_RollCallsAndProbesAreSent_safe : nextInTurn 1 2 (gone safe) := by
  refine ⟨.inr ⟨rfl, by decide, by decide, ?_⟩, ?_⟩
  · rintro ⟨n, hn, -, hk⟩
    exact look_all (P := fun b (m : Node) => b = 2 → ¬ (m.kind = .drive ∨ m.kind = .lamp ∨ m.kind = .sign)) (by decide) 2 n hn
      rfl hk
  · rintro b (⟨hs, -⟩ | ⟨-, h, -⟩)
    · exact absurd rfl hs
    · omega

/-- Node 1's turn, a POLL, after node 6 was last served; node 3's turn, a SET, after node 2. -/
theorem witness_TurnsSendPollAndSet :
    small.resetLow = false ∧ smallSegment.nodes.rising = true ∧ smallSegment.state = .running
    ∧ smallSegment.phase = .quiet ∧ smallSegment.probeDue = false ∧ small.segs.look 0 = some smallSegment
    ∧ smallSegment.nodes.look 1 = some (node .bay none)
    ∧ smallSegment.nodes.look 3 = some (node .drive (some (.percent 30)))
    ∧ smallSegment.nodes.look 6 = some (node .sign (some (.display .full))) := by decide +kernel
/-- Whether an address of the small segment is in the cycle. -/
def cycles (s : State) (b : Nat) : Prop :=
  (s.part ≠ .safe ∧ ∃ m, smallSegment.nodes.look b = some m ∧ m.state.reachable = true)
  ∨ (s.part = .safe ∧ smallSegment.cyclesInSafe b)
theorem witness_TurnsSendPollAndSet_next (last a : Nat) (h : (last, a) = (6, 1) ∨ (last, a) = (2, 3)) :
    nextInTurn last a (cycles small) := by
  have all : ∀ b, cycles small b → b = 1 ∨ b = 2 ∨ b = 3 ∨ b = 4 ∨ b = 5 ∨ b = 6 := by
    rintro b (⟨-, m, hm, hr⟩ | ⟨hs, -⟩)
    · exact look_all (P := fun b (m : Node) => m.state.reachable = true → b = 1 ∨ b = 2 ∨ b = 3 ∨ b = 4 ∨ b = 5 ∨ b = 6)
        (by decide) b m hm hr
    · exact absurd hs (by decide)
  simp only [Prod.mk.injEq] at h
  obtain ⟨rfl, rfl⟩ | ⟨rfl, rfl⟩ := h
  · exact ⟨.inl ⟨by decide, _, rfl, rfl⟩, fun b hb => by have := all b hb; omega⟩
  · exact ⟨.inl ⟨by decide, _, rfl, rfl⟩, fun b hb => by have := all b hb; omega⟩
/-- In SAFE the cycle starts at the DRIVE node 3. -/
theorem witness_TurnsSendPollAndSet_safe : safe.part = .safe ∧ nextInTurn 0 3 (cycles safe) := by
  refine ⟨rfl, .inr ⟨rfl, _, rfl, rfl, .inl rfl⟩, ?_⟩
  rintro b (⟨hs, -⟩ | ⟨-, m, hm, hr, hk⟩)
  · exact absurd rfl hs
  · have := look_all (P := fun b (m : Node) => m.kind = .drive ∨ m.kind = .lamp ∨ m.kind = .sign → 3 ≤ b) (by decide) b m hm hk
    omega

def bayReply : List Byte := replyFrame 1 .poll .bay (.bay (.present :: List.replicate 15 .absent))
def gasReply : List Byte := replyFrame 2 .poll .gas (.gas 2000 .ok 0 .fault)
/-- A bay whose slot reports PRESENT, and a held bay, not UNKNOWN, whose slot reports FAULT. -/
theorem witness_GoodRepliesAreTaken :
    let s := { held with segs := (awaiting .poll 1 false).segs }
    s.resetLow = false ∧ s.part ≠ .safe ∧ s.tablesRising = true ∧ s.heldBaysKnown = true ∧ s.holdsAgree = true
    ∧ s.segs.look 0 = some { smallSegment with phase := .awaiting ⟨.poll, 1, false, []⟩ }
    ∧ smallNodes.look 1 = some (node .bay none) ∧ (node .bay none).state.reachable = true
    ∧ readReply 1 .poll bayReply = .whole .bay (.bay (.present :: List.replicate 15 .absent))
    ∧ readReply 1 .poll (replyFrame 1 .poll .bay (.bay (.fault :: List.replicate 15 .absent)))
        = .whole .bay (.bay (.fault :: List.replicate 15 .absent))
    ∧ s.bays.look 0 = some { smallBay 0 with hold := some 63 } ∧ (smallBay 0).seg = 0 ∧ (smallBay 0).addr = 1
    ∧ (RawValue.present :: List.replicate 15 .absent)[(smallBay 0).slot]? = some .present := by decide +kernel
theorem witness_GoodRepliesAreTaken_gas :
    (awaiting .poll 2 false).segs.look 0 = some { smallSegment with phase := .awaiting ⟨.poll, 2, false, []⟩ }
    ∧ smallNodes.look 2 = some (node .gas none)
    ∧ readReply 2 .poll gasReply = .whole .gas (.gas 2000 .ok 0 .fault)
    ∧ ∃ ch, (awaiting .poll 2 false).gas.look 0 = some ch ∧ ch.seg = 0 ∧ ch.addr = 2 :=
  ⟨by decide +kernel, by decide, by decide +kernel, _, rfl, rfl, rfl⟩
theorem witness_GoodRepliesAreTaken_set :
    (awaiting .set 3 false).segs.look 0 = some { smallSegment with phase := .awaiting ⟨.set, 3, false, []⟩ }
    ∧ smallNodes.look 3 = some (node .drive (some (.percent 30)))
    ∧ readReply 3 .set (replyFrame 3 .set .drive (.drive 30 .running 29)) = .whole .drive (.drive 30 .running 29) := by
  decide +kernel
/-- The shaft's drive trips, and so does the JET drive; a lamp reports a luminaire; a sign shows what it was sent. -/
theorem witness_SetRepliesReachTheOwners :
    small.resetLow = false ∧ small.part ≠ .safe ∧ (awaiting .set 3 false).tablesRising = true
    ∧ (awaiting .set 3 false).heldBaysKnown = true
    ∧ (awaiting .set 3 false).segs.look 0 = some { smallSegment with phase := .awaiting ⟨.set, 3, false, []⟩ }
    ∧ smallNodes.look 3 = some (node .drive (some (.percent 30))) ∧ (node .drive (some (.percent 30))).state.reachable = true
    ∧ readReply 3 .set (replyFrame 3 .set .drive (.drive 30 .tripped 0)) = .whole .drive (.drive 30 .tripped 0)
    ∧ readReply 4 .set (replyFrame 4 .set .drive (.drive 0 .tripped 0)) = .whole .drive (.drive 0 .tripped 0)
    ∧ readReply 5 .set (replyFrame 5 .set .lamp (.lamp 40 1)) = .whole .lamp (.lamp 40 1)
    ∧ readReply 6 .set (replyFrame 6 .set .sign (.sign .full)) = .whole .sign (.sign .full)
    ∧ small.drives.look 0 = some ⟨.shaft 0 40, 0, 3, .available, none⟩ ∧ (small.shafts.look 0).isSome = true
    ∧ small.drives.look 1 = some ⟨.jet 0, 0, 4, .available, none⟩ ∧ (small.vent.look 0).isSome = true
    ∧ Availability.available ≠ .waiting ∧ Availability.available ≠ .unavailable
    ∧ small.lights.look 0 = some smallLight ∧ smallLight.failed.getD 0 < 1
    ∧ (small.lamps.any fun e => e.2.zone == 0 && e.2.seg == 0 && e.2.addr == 5) = true
    ∧ (small.signs.look 0).isSome = true := by decide +kernel
/-- A sample at the highest value, and a fault that leaves the zone without a valid channel. -/
theorem witness_ZoneSampleIsTaken :
    let s := awaiting .poll 2 false
    let t := after (exec (.goodPollReply 0 gasReply) s)
    let u := after (exec (.goodPollReply 0 (replyFrame 2 .poll .gas (.gas 0 .fault 0 .fault))) s)
    s.resetLow = false ∧ s.part ≠ .safe ∧ s.tablesRising = true ∧ s.heldBaysKnown = true
    ∧ s.segs.look 0 = some { smallSegment with phase := .awaiting ⟨.poll, 2, false, []⟩ }
    ∧ smallNodes.look 2 = some (node .gas none) ∧ (node .gas none).kind = .gas ∧ (node .gas none).state.reachable = true
    ∧ readReply 2 .poll gasReply = .whole .gas (.gas 2000 .ok 0 .fault)
    ∧ readReply 2 .poll (replyFrame 2 .poll .gas (.gas 0 .fault 0 .fault)) = .whole .gas (.gas 0 .fault 0 .fault)
    ∧ s.zones.has 0 = true ∧ s.air.look 0 = some smallAir ∧ t.sensed 0 = true ∧ u.sensed 0 = false
    ∧ s.smoke = none ∧ (s.vent.look 0).isSome = true ∧ s.status.look 0 = some .cold := by decide +kernel

/-- A roll call at an address, with some attempts made and the threshold fixed at 3. -/
def calling (addr attempts : Nat) : Segment :=
  { smallSegment with
    state := .discovering, phase := .awaiting ⟨.rollCall, addr, false, []⟩, rollCall := some ⟨addr, attempts, some 3, []⟩ }
/-- The transaction of that roll call. -/
def called (addr : Nat) : Transaction := ⟨.rollCall, addr, false, []⟩
/-- Each way to resolve an address, at the configured address 1, at its threshold, and at 61, which no table names; in SAFE
an address that answers and one that does not. -/
theorem witness_Resolving :
    let s := fun (a : Nat) => seg fun _ => calling a 2
    let rc : RollCall := ⟨1, 2, some 3, []⟩
    Resolving (s 1) 0 (calling 1 2) (called 1) rc (.validRollCallReply 0 (replyFrame 1 .rollCall .bay .nothing))
      (some ⟨.bay, .present, 0, none⟩) 0
    ∧ Resolving (s 1) 0 (calling 1 2) (called 1) rc (.validRollCallReply 0 (replyFrame 1 .rollCall .gas .nothing))
      (some ⟨.bay, .mismatch, 0, some .wrongKind⟩) 0
    ∧ Resolving (s 61) 0 (calling 61 2) (called 61) rc (.validRollCallReply 0 (replyFrame 61 .rollCall .bay .nothing)) none 1
    ∧ Resolving (s 1) 0 (calling 1 2) (called 1) rc (.replyTimeout 0) (some ⟨.bay, .lost, 3, some .timeout⟩) 0
    ∧ Resolving (s 61) 0 (calling 61 2) (called 61) rc (.replyGap 0) none 0
    ∧ Resolving (s 1) 0 (calling 1 2) (called 1) rc (.replyBadFrame 0 [65, 1, 9]) (some ⟨.bay, .lost, 3, some .check⟩) 0
    ∧ Resolving { s 61 with part := .safe } 0 (calling 61 2) (called 61) rc
      (.validRollCallReply 0 (replyFrame 61 .rollCall .bay .nothing)) (some ⟨.bay, .present, 0, none⟩) 0
    ∧ Resolving { s 61 with part := .safe } 0 (calling 61 2) (called 61) rc (.replyTimeout 0) none 0 :=
  ⟨.answer _ .bay (by decide +kernel) (.inr (by decide)), .answer _ .gas (by decide +kernel) (.inr (by decide)),
    .stray _ .bay (by decide +kernel) (by decide) rfl, .timeout 3 rfl (by decide), .gap 3 rfl (by decide),
    .bad 3 _ rfl (by decide) (by decide +kernel), .answer _ .bay (by decide +kernel) (.inl rfl), .timeout 3 rfl (by decide)⟩
/-- Below the threshold, in discovery and in recovery; and addresses 1 and 61, below the last, resolved by
`witness_Resolving`. -/
theorem witness_RollCallAttemptsResolve :
    (seg fun _ => calling 1 0).resetLow = false ∧ (seg fun _ => calling 1 0).part ≠ .safe
    ∧ (seg fun _ => calling 1 2).heldBaysKnown = true ∧ (seg fun _ => calling 1 2).segs.look 0 = some (calling 1 2)
    ∧ (seg fun _ => calling 61 2).heldBaysKnown = true ∧ (seg fun _ => calling 61 2).segs.look 0 = some (calling 61 2)
    ∧ (calling 1 0).state = .discovering ∧ { calling 1 1 with state := .recovering }.state = .recovering
    ∧ smallNodes.look 1 = some (node .bay none) ∧ smallNodes.look 61 = none ∧ 61 < 62 ∧ 1 + 1 < 3
    ∧ (seg fun _ => calling 1 1).segs.look 0 = some (calling 1 1) ∧ (calling 1 1).phase = .awaiting (called 1)
    ∧ (calling 1 1).rollCall = some ⟨1, 1, some 3, []⟩ ∧ readReply 1 .rollCall [65, 1, 9] = .bad
    ∧ NodeState.lost.gone = true ∧ (node .bay none).state ≠ .lost := by decide +kernel
/-- The same segment in SAFE; and the shaft's drive waiting for its node, EXPECTED, whose roll call this is. -/
theorem witness_RollCallAttemptsResolve_safe :
    let s := { (seg fun _ => { calling 3 0 with nodes := smallNodes.adjust 3 fun n => { n with state := .expected } }) with
      drives := small.drives.adjust 0 fun d => { d with avail := .waiting } }
    ({ (seg fun _ => calling 61 2) with part := .safe } : State).part = .safe
    ∧ ({ (seg fun _ => calling 61 2) with part := .safe } : State).heldBaysKnown = true
    ∧ s.heldBaysKnown = true ∧ s.drives.rising = true
    ∧ s.drives.look 0 = some ⟨.shaft 0 40, 0, 3, .waiting, none⟩
    ∧ readReply 3 .rollCall (replyFrame 3 .rollCall .drive .nothing) = .whole .drive .nothing := by decide +kernel
/-- A roll call of recovery with two attempts made and a result held back for the node at address 1. -/
def recovering (a : Nat) : Segment :=
  { calling a 2 with state := .recovering, rollCall := some ⟨a, 2, some 3, [(1, ⟨.bay, .lost, 3, some .timeout⟩)]⟩ }
/-- The roll call at address 62, in discovery and in recovery with a result held back, in SAFE too; and at address 61 in
recovery. -/
theorem witness_RollCallsEnd :
    let rc : RollCall := ⟨62, 2, some 3, [(1, ⟨.bay, .lost, 3, some .timeout⟩)]⟩
    (seg fun _ => calling 62 2).resetLow = false ∧ (seg fun _ => calling 62 2).segs.look 0 = some (calling 62 2)
    ∧ (calling 62 2).rollCall = some ⟨62, 2, some 3, []⟩ ∧ (seg fun _ => calling 62 2).segs.rising = true
    ∧ ({ (seg fun _ => calling 62 2) with part := .discovering } : State).part = .discovering
    ∧ (seg fun _ => recovering 62).segs.look 0 = some (recovering 62) ∧ (recovering 62).rollCall = some rc
    ∧ (seg fun _ => recovering 62).part ≠ .safe ∧ (seg fun _ => recovering 61).heldBaysKnown = true
    ∧ ({ (seg fun _ => recovering 62) with part := .safe } : State).heldBaysKnown = true
    ∧ (recovering 61).phase = .awaiting (called 61) ∧ rc.results.rising = true
    ∧ (recovering 62).written rc 62 none 1 = some ⟨.bay, .lost, 3, some .timeout⟩
    ∧ smallNodes.look 1 = some (node .bay none) ∧ NodeState.lost.gone = true ∧ NodeState.present ≠ .lost := by
  decide +kernel
theorem witness_RollCallsEnd_resolving :
    Resolving (seg fun _ => recovering 62) 0 (recovering 62) (called 62)
      ⟨62, 2, some 3, [(1, ⟨.bay, .lost, 3, some .timeout⟩)]⟩
      (.validRollCallReply 0 (replyFrame 62 .rollCall .drive .nothing)) (some ⟨.drive, .present, 0, some .timeout⟩) 0 :=
  .answer _ .drive (by decide +kernel) (.inr (by decide))
theorem witness_ProbeReplyJudged :
    (awaiting .rollCall 62 true).resetLow = false ∧ (awaiting .rollCall 62 true).part ≠ .safe
    ∧ (awaiting .rollCall 62 true).segs.look 0 = some { smallSegment with phase := .awaiting ⟨.rollCall, 62, true, []⟩ }
    ∧ (∃ n, smallSegment.nodes.look 62 = some n ∧ n.state.gone = true ∧ n.kind = .drive)
    ∧ readReply 62 .rollCall (replyFrame 62 .rollCall .drive .nothing) = .whole .drive .nothing
    ∧ readReply 62 .rollCall (replyFrame 62 .rollCall .lamp .nothing) = .whole .lamp .nothing
    ∧ readReply 62 .rollCall [126, 1, 9] = .bad ∧ small.drives.rising = true
    ∧ ({ awaiting .rollCall 62 true with part := .safe } : State).part = .safe
    ∧ ({ awaiting .rollCall 62 true with part := .safe } : State).heldBaysKnown = true :=
  ⟨rfl, by decide, by decide +kernel, ⟨_, rfl, rfl, rfl⟩, by decide +kernel, by decide +kernel, by decide +kernel, by decide, rfl,
    by decide +kernel⟩
theorem witness_MissesAreCounted :
    (awaiting .poll 1 false).resetLow = false
    ∧ (awaiting .poll 1 false).segs.look 0 = some { smallSegment with phase := .awaiting ⟨.poll, 1, false, []⟩ }
    ∧ smallNodes.look 1 = some (node .bay none) ∧ (node .bay none).state.reachable = true
    ∧ readReply 1 .poll [65, 2, 9] = .bad
    ∧ readReply 1 .poll (replyFrame 1 .poll .gas (.gas 0 .ok 0 .ok)) = .whole .gas (.gas 0 .ok 0 .ok) := by
  decide +kernel
theorem witness_HangsFreezeThenLoseNodes :
    ({ small with part := .discovering } : State).part = .discovering ∧ small.segs.rising = true ∧
    small.resetLow = false ∧ small.segs.look 0 = some smallSegment ∧ smallSegment.driving = false
    ∧ smallSegment.state = .running ∧ { smallSegment with phase := .wakeIdle }.driving = true
    ∧ (seg fun g => { g with state := .hung }).segs.look 0 = some { smallSegment with state := .hung }
    ∧ smallSegment.nodes.rising = true ∧ smallNodes.look 1 = some (node .bay none)
    ∧ (node .bay none).state ≠ .lost := by decide +kernel
/-- A held bay's node at its last miss; and the same segment 5 s into a hang. -/
theorem witness_LostNodesReachTheOwners :
    let n : Node := { node .bay none with misses := 2, state := .suspect }
    let g : Segment := { smallSegment with phase := .awaiting ⟨.poll, 1, false, []⟩, nodes := smallNodes.adjust 1 fun _ => n }
    let s := { held with segs := held.segs.adjust 0 fun _ => g }
    s.resetLow = false ∧ s.part ≠ .safe ∧ s.tablesRising = true ∧ s.heldBaysKnown = true ∧ s.holdsAgree = true
    ∧ s.segs.look 0 = some g ∧ g.nodes.look 1 = some n ∧ n.state.reachable = true ∧ s.sp 37 ≤ n.misses + 1
    ∧ readReply 1 .poll [65, 2, 9] = .bad
    ∧ readReply 1 .poll (replyFrame 1 .poll .gas (.gas 0 .ok 0 .ok)) = .whole .gas (.gas 0 .ok 0 .ok)
    ∧ (seg fun g => { g with state := .hung }).segs.look 0 = some { smallSegment with state := .hung } := by decide +kernel
/-- The small site's zones have one JET drive at most, wherever a bay's node or a segment stands. -/
theorem witness_LostNodesReachTheOwners_jets : oneJet small.drives ∧ held.drives = small.drives := by
  refine ⟨fun d d' x x' z h h' hz hz' => ?_, by decide⟩
  have jet : ∀ d (x : Drive), small.drives.look d = some x → x.duty = .jet z → d = 1 := fun d x h =>
    look_all (P := fun d (x : Drive) => x.duty = .jet 0 → d = 1) (by decide) d x h ∘ fun e => by
      have := look_all (P := fun _ (x : Drive) => x.duty = .jet 0 ∨ x.duty = .shaft 0 40) (by decide) d x h
      rcases this with w | w <;> simp_all
  rw [jet d x h hz, jet d' x' h' hz']
/-- The held bay's node resolved LOST at the end of a recovery that brings the drive node 62 back; and a probe of that node,
LOST, answered by a lamp node. -/
theorem witness_LostNodesReachTheOwners_roll_call :
    let s := { held with segs := held.segs.adjust 0 fun _ => recovering 62 }
    s.resetLow = false ∧ s.part ≠ .safe ∧ s.tablesRising = true ∧ s.heldBaysKnown = true ∧ s.holdsAgree = true
    ∧ s.segs.look 0 = some (recovering 62) ∧ smallNodes.look 1 = some (node .bay none)
    ∧ (∃ n, smallNodes.look 62 = some n ∧ n.state = .lost ∧ NodeKind.lamp ≠ n.kind)
    ∧ (awaiting .rollCall 62 true).segs.look 0 = some { smallSegment with phase := .awaiting ⟨.rollCall, 62, true, []⟩ }
    ∧ readReply 62 .rollCall (replyFrame 62 .rollCall .lamp .nothing) = .whole .lamp .nothing
    ∧ (awaiting .rollCall 62 true).tablesRising = true :=
  ⟨by decide +kernel, by decide, by decide +kernel, by decide +kernel, by decide +kernel, by decide +kernel, by decide +kernel,
    ⟨_, rfl, rfl, by decide⟩, by decide +kernel, by decide +kernel, by decide +kernel⟩

/-! #### The station lines -/

theorem witness_StationLineMoments :
    small.resetLow = false ∧ (0#16).toNat = 0 ∧ ¬ 256 < (256#16).toNat ∧ 256 < (257#16).toNat := by decide
/-- A port in DISCARDING, a wrong check, a reply being sent; an unknown code; an argument too few, and a body of the
256 bytes a frame can hold. -/
theorem witness_StationLineMoments_frames :
    small.resetLow = false
    ∧ ((small.withPort .s0 fun r => { r with rx := .discarding }).ports.at .s0).rx = .discarding
    ∧ (small.ports.at .s0).rx ≠ .discarding ∧ (small.ports.at .s0).tx = none ∧ (sending.ports.at .s0).tx ≠ none
    ∧ readStationFrame [0xC3, 0, 1, 0x01, 0xC6] = some ⟨0x01, [], false⟩
    ∧ readStationFrame [0xC3, 0, 1, 0x01, 0xC5] = some ⟨0x01, [], true⟩
    ∧ decodeRequest .s0 0x0D [] = .unknownCommand ∧ decodeRequest .s0 0x03 [] = .badLength
    ∧ 1 + (List.replicate 255 (0 : Byte)).length ≤ 256
    ∧ decodeRequest .s0 0x03 (List.replicate 255 0) = .badLength := by decide +kernel
theorem witness_RequestCodingRoundTrip :
    (Instr.setSetpoints .s0 (List.replicate 84 (7, 900))).wellFormed = true
    ∧ (Instr.setRing .s0 0 (List.replicate 253 0)).wellFormed = true
    ∧ encodeRequest (.setRing .s0 0 (List.replicate 253 0)) = some (.s0, 0x36, 0 :: 253 :: List.replicate 253 0)
    ∧ (encodeRequest (.setSetpoints .s0 (List.replicate 84 (7, 900)))).isSome = true
    ∧ (Instr.ackNotice .s2 none).wellFormed = true ∧ encodeRequest (.ackNotice .s2 none) = some (.s2, 0x71, [0]) := by
  decide +kernel
theorem witness_PortUnitRefusals :
    encodeRequest (.closeZone .s1 0) = some (.s1, 0x43, [0]) ∧ small.resetLow = false
    ∧ (small.ports.at .s1).rx ≠ .discarding ∧ (small.ports.at .s1).tx = none
    ∧ State.reset.part = .loading ∧ (State.reset.ports.at .s1).tx = none
    ∧ ({ small with part := .safe } : State).part = .safe
    ∧ (small.ports.at .s1).rights.has (rightOfCode 0x43) = false
    ∧ ({ small with part := .discovering } : State).part = .discovering
    ∧ (small.ports.at .s0).rights.has (rightOfCode 0x43) = true := by decide
theorem witness_RefusedRequestChangesNothing :
    ∃ t, encodeRequest (.closeZone .s0 255) = some (.s0, 0x43, [255]) ∧ small.resetLow = false
      ∧ (small.ports.at .s0).rx ≠ .discarding ∧ (small.ports.at .s0).tx = none
      ∧ exec (.closeZone .s0 255) small = .next t := ⟨_, rfl, rfl, by decide, rfl, rfl⟩
theorem witness_RefusedRequestChangesNothing_field :
    ∃ t, encodeRequest (.smoke .s2 0) = some (.s2, 0x50, [0]) ∧ (0x50 : Byte) ≠ 0x65
      ∧ exec (.smoke .s2 0) small = .next t := ⟨_, rfl, by decide, rfl⟩

/-! #### The requests -/

theorem small_ready :
    small.ready .s0 .read ∧ small.ready .s0 .config ∧ small.ready .s0 .override ∧ small.ready .s0 .admin
    ∧ small.ready .s1 .lane ∧ small.ready .s2 .fire ∧ small.ready .s2 .read := by
  unfold State.ready; decide

theorem witness_ReadsOfPartOptionsAndField :
    small.ready .s0 .read ∧ State.reset.resetLow = false ∧ State.reset.part = .loading
    ∧ (State.reset.ports.at .s0).rx ≠ .discarding ∧ (State.reset.ports.at .s0).tx = none
    ∧ (safe.ports.at .s0).rights.read = true ∧ (safe.ports.at .s0).rx ≠ .discarding ∧ (safe.ports.at .s0).tx = none
    ∧ small.options = some smallOptions ∧ small.segs.look 0 = some smallSegment ∧ small.node 0 62 ≠ none
    ∧ small.node 0 61 = none ∧ 1 ≤ (1#8).toNat ∧ (62#8).toNat ≤ 62 ∧ (7#8).toNat < 8 ∧ 8 ≤ (8#8).toNat
    ∧ (0#8).toNat = 0 ∧ 62 < (63#8).toNat :=
  ⟨small_ready.1, by decide +kernel⟩
theorem witness_ReadsOfZonesHoldsAndSigns :
    small.ready .s0 .read ∧ small.zones.look 0 = some ⟨0, some 0, 3⟩ ∧ small.status.look 0 = some .cold
    ∧ (small.vent.look 0).isSome = true ∧ small.lights.look 0 = some smallLight
    ∧ (1#8).toNat < (small.zoneBays 0).length ∧ (small.zoneBays 0).length ≤ (2#8).toNat ∧ small.zoneBays 1 = []
    ∧ (63#8).toNat < 64 ∧ 64 ≤ (64#8).toNat ∧ (small.shafts.look 0).isSome = true ∧ (small.signs.look 0).isSome = true
    ∧ small.air.look 0 = some smallAir ∧ smallAir.ring.length = 15 ∧ smallAir.writePos < 15
    ∧ small.zones.has 2 = false ∧ small.shafts.look 1 = none ∧ small.signs.look 1 = none ∧ small.air.look 2 = none :=
  ⟨small_ready.1, by decide +kernel⟩
theorem witness_ReadsThatTake : small.ready .s0 .read ∧ small.zones.rising = true := ⟨small_ready.1, by decide⟩
/-- Entry point 0 and exit point 3 have ramp lists; entry point 3 and exit point 0 have none. -/
theorem witness_EntryAndExitCreditTheRamp :
    small.ready .s1 .lane ∧ VehicleClass.ofCode (3#8).toNat = some .unknown ∧ [1].Nodup ∧ [1, 0].Nodup
    ∧ small.entryRamps.look 0 = some [1] ∧ small.exitRamps.look 3 = some [1, 0]
    ∧ small.entryRamps.look 3 = none ∧ small.exitRamps.look 0 = none := by
  refine ⟨small_ready.2.2.2.2.1, by decide⟩
theorem witness_RequestBayMakesAHold :
    small.ready .s1 .lane ∧ small.entryRamps.has (0#8).toNat = true ∧ VehicleClass.ofCode (1#8).toNat = some .diesel
    ∧ wantedKindOfCode (0#8).toNat = some none ∧ small.smoke = none ∧ small.holdPtr < 64
    ∧ small.select 0 .diesel (tiers none .diesel) = some (0, 0) ∧ small.bays.look 0 = some (smallBay 0)
    ∧ small.routeOf 0 0 = some [1, 0] ∧ [1, 0].Nodup :=
  ⟨small_ready.2.2.2.2.1, by decide +kernel⟩
/-- Slot 0 comes after the pointer at 63, past no other. -/
theorem witness_RequestBayMakesAHold_slot :
    small.holdPtr = 63 ∧ nextInTurn small.holdPtr 0 (fun n => n < 64 ∧ small.holds.has n = false) :=
  ⟨rfl, ⟨by decide, by decide⟩, fun b hb => .inr ⟨by decide, Nat.le_of_lt_succ hb.1, by omega⟩⟩
/-- Entry point 1 is not configured, class 4 and wanted kind 5 name nothing; smoke mode; 64 live holds; no charger bay. -/
theorem witness_RequestBayMakesAHold_refused :
    small.entryRamps.has (1#8).toNat = false ∧ 3 < (4#8).toNat ∧ (3#8).toNat ≤ 3 ∧ 4 < (5#8).toNat ∧ (4#8).toNat ≤ 4
    ∧ smoking.entryRamps.has (0#8).toNat = true ∧ smoking.smoke ≠ none
    ∧ (∀ n, n < 64 → ({ small with holds := (List.range 64).map fun n => (n, smallHold) } : State).holds.has n = true)
    ∧ wantedKindOfCode (3#8).toNat = some (some .charger) ∧ small.holds.has 63 = false
    ∧ small.select 0 .diesel (tiers (some .charger) .diesel) = none := by decide +kernel
theorem witness_SelectionPicksTheWinnersBay :
    small.routeOf 0 0 = some [1, 0] ∧ small.air.look 0 = some smallAir ∧ [0] ≠ ([] : List Nat)
    ∧ small.winner 0 .diesel [.standard] [0, 1] ≠ none ∧ small.bays.rising = true
    ∧ small.tierBay 0 [.standard] = some 0 ∧ small.countsSound = true ∧ small.candidates 0 [.standard] = [0]
    ∧ small.winner 0 .diesel [.standard] [0] = some 0 ∧ small.candidates 0 [.charger] = [] := by decide +kernel
theorem held_ready : held.ready .s1 .lane ∧ held.ready .s0 .config ∧ held.ready .s0 .override ∧ held.ready .s2 .fire := by
  unfold State.ready; decide
/-- Slots 63 and 64, a bay that is not configured, slot 63's hold by its bay, by another bay, and an empty slot. -/
theorem witness_ReleaseHoldEndsTheHold :
    held.ready .s1 .lane ∧ (63#8).toNat < 64 ∧ 64 ≤ (64#8).toNat ∧ held.bays.has (2#16).toNat = false
    ∧ held.bays.has (0#16).toNat = true
    ∧ held.holds.look 63 = some smallHold ∧ smallHold.bay = 0 ∧ held.bays.has (1#16).toNat = true ∧ smallHold.bay ≠ 1
    ∧ held.holds.look 0 = none := ⟨held_ready.1, by decide +kernel⟩
theorem witness_SetSetpointsHoldsTheLegalSet :
    small.ready .s0 .config ∧ (∃ x ∈ [((38#8 : Byte), 0#16)], 37 < x.1.toNat)
    ∧ (∀ x ∈ [((37#8 : Byte), 65535#16)], x.1.toNat ≤ 37) ∧ small.setpoints.length = 38 :=
  ⟨small_ready.2.1, by simp, by simp, by decide⟩
/-- A write of the floor light, of the fail-safe stage with a zone's sensors lost, of a flow, of the restricted percent
under RESTRICTED supply, and of the smoke jet speed with smoke mode on the JET drive's level. -/
theorem witness_SetSetpointsHoldsTheLegalSet_changed :
    let moves := fun (n : Byte) (s : State) => (after (exec (.setSetpoints .s0 [(n, 1)]) s)).sp n.toNat ≠ s.sp n.toNat
    moves 32 small ∧ moves 18 { small with air := small.air.adjust 0 fun a => { a with loss := true } } ∧ moves 19 small
    ∧ moves 28 { small with supply := .restricted } ∧ moves 29 { small with smoke := some 0 }
    ∧ ({ small with smoke := some 0 } : State).tablesRising = true
    ∧ small.tablesRising = true ∧ small.drives.look 0 = some ⟨.shaft 0 40, 0, 3, .available, none⟩
    ∧ small.shafts.look 0 = some ⟨.fixed, [0], [], 40, 40, 0, 0⟩ ∧ 0 ∈ [0] ∧ small.drives.look 1 = some ⟨.jet 0, 0, 4, .available, none⟩ ∧ small.zones.look 0 = some ⟨0, some 0, 3⟩ := by
  decide +kernel
/-- A ROTATING shaft: zone 0 has SENSOR_LOSS and PEAK and is wanted at 4; zone 1 is in the set and wanted at 0. -/
def lossy : State :=
  let v : VentZone := { VentZone.cold ⟨0, some 0, 3⟩ with wanted := 4, want := 40, alarmMin := 4 }
  { small with
    zones := [(0, ⟨0, some 0, 3⟩), (1, ⟨1, some 0, 2⟩)]
    air := small.air.adjust 0 fun a => { a with loss := true, peak := true }
    vent := [(0, v), (1, .cold ⟨1, some 0, 2⟩)]
    shafts := [(0, ⟨.rotating, [1, 0], [1], 40, 40, 0, 0⟩)] }
theorem witness_SetSetpointsHoldsTheLegalSet_failSafe :
    lossy.ready .s0 .config ∧ lossy.smoke = none ∧ lossy.tablesRising = true ∧ lossy.plantFormed = true
    ∧ (∀ e ∈ lossy.vent, e.2.floor ≤ e.2.want) ∧ lossy.shafts.look 0 = some ⟨.rotating, [1, 0], [1], 40, 40, 0, 0⟩
    ∧ 0 ∈ [1, 0] ∧ (lossy.air.look 0).map AirZone.loss = some true ∧ lossy.sp 18 ≠ 3 := by unfold State.ready; decide +kernel
/-- The write leaves its wanted stage as it was, and the review moves the other zone all the same. -/
theorem step_fail_safe_reviews_the_ring :
    let t := after (exec (.setSetpoints .s0 [(18, 3)]) lossy)
    (t.vent.look 0).map VentZone.wanted = some 4 ∧ (t.shafts.look 0).map Shaft.ring = some [0, 1] := by decide +kernel
/-- No other record names the nodes of the small site's drives. -/
theorem small_alone (d : Nat) (x : Drive) (h : small.drives.look d = some x) : small.nodeAlone d x := by
  have two : (d = 0 ∧ x.seg = 0 ∧ x.addr = 3) ∨ (d = 1 ∧ x.seg = 0 ∧ x.addr = 4) :=
    look_all (P := fun d (x : Drive) => (d = 0 ∧ x.seg = 0 ∧ x.addr = 3) ∨ (d = 1 ∧ x.seg = 0 ∧ x.addr = 4)) (by decide) d x h
  refine ⟨fun d' x' h' _ ha => ?_, fun c p hp ha => ?_, fun k g hg ha => ?_⟩
  · have := look_all (P := fun d (x : Drive) => (d = 0 ∧ x.addr = 3) ∨ (d = 1 ∧ x.addr = 4)) (by decide) d' x' h'
    omega
  · have := look_all (P := fun _ (p : Lamp) => p.addr = 5) (by decide) c p hp
    omega
  · have := look_all (P := fun _ (g : Sign) => g.addr = 6) (by decide) k g hg
    omega
theorem witness_SetZoneReplacesTheRecord :
    small.ready .s0 .config ∧ small.zones.look 1 = some ⟨1, none, 2⟩ ∧ small.zones.look 0 = some ⟨0, some 0, 3⟩
    ∧ (1#8).toNat < small.levelCount ∧ small.shafts.has 0 = true ∧ (small.shaftZones 0).length < 16
    ∧ (255#8).toNat = 255 ∧ small.zones.has (2#8).toNat = false ∧ small.levelCount ≤ (2#8).toNat
    ∧ small.shafts.has (1#8).toNat = false := ⟨small_ready.2.1, by decide⟩
/-- Shaft 0 with its 16 zones, and zone 16 of no shaft. -/
theorem witness_SetZoneReplacesTheRecord_full :
    let s := { small with zones := (List.range 16).map (fun z => (z, (⟨0, some 0, 3⟩ : ZoneEntry))) ++ [(16, (⟨0, none, 3⟩ : ZoneEntry))] }
    s.zones.look (16#8).toNat = some ⟨0, none, 3⟩ ∧ none ≠ some 0 ∧ 16 ≤ (s.shaftZones 0).length
    ∧ s.shafts.has 0 = true := by decide +kernel
/-- The small site with every shaft recomputed. -/
def served : State := held.recomputeAll
/-- A zone to another shaft and to none, from a shaft with its zone retired, with new base flows; and in smoke mode a new
level of the JET drive's zone. -/
theorem witness_SetZoneReplacesTheRecord_moves :
    let k : Shaft := ⟨.rotating, [0], [0], 40, 40, 0, 0⟩
    served.tablesRising = true ∧ served.plantFormed = true ∧ served.plantShared = true ∧ served.smoke = none
    ∧ served.zones.look (0#8).toNat = some ⟨0, some 0, 3⟩ ∧ (some 0 : Option Nat) ≠ none ∧ 3 ≠ min 40 (4#16).toNat
    ∧ (served.shafts.look 0).isSome = true ∧ (served.vent.look 0).isSome = true ∧ served.status.look 0 = some .cold
    ∧ (served.vent.look 1).isSome = true ∧ ({ small with shafts := [(0, k)] } : State).shafts.look 0 = some k
    ∧ ({ small with smoke := some 1 } : State).smoke = some 1 ∧ small.drives.rising = true ∧ 0 ≠ (1#8).toNat
    ∧ small.drives.look 1 = some ⟨.jet 0, 0, 4, .available, none⟩ := by decide +kernel
/-- A move to the end of the new ring, and the speed that follows its flow of 3 and 2 of a rating of 40. -/
theorem step_set_zone_joins_last :
    let t := after (exec (.setZone .s0 1 1 0 2) served)
    (t.shafts.look 0).map (fun k => (k.ring, k.flow, k.speed)) = some ([0, 1], 5, 20)
    ∧ (t.node 0 3).bind Node.commanded = some (.percent 20) := by decide +kernel
theorem witness_SetBayStoresKindAndFlag :
    held.ready .s0 .config ∧ held.bays.look 0 = some { smallBay 0 with hold := some 63 }
    ∧ BayKind.ofCode (3#8).toNat = some .accessible ∧ flagOfCode (1#8).toNat = some true
    ∧ held.holds.look 63 = some smallHold ∧ smallHold.bay = 0 ∧ held.bays.look 1 = some (smallBay 1)
    ∧ held.bays.has (2#16).toNat = false ∧ 3 < (4#8).toNat ∧ 1 < (2#8).toNat :=
  ⟨held_ready.2.1, by decide +kernel⟩
/-- Lists of 12 and 13, of 8 and 9, unknown zones, repeats, and an empty list. -/
theorem witness_SetRouteAndSetRamp :
    small.ready .s0 .config ∧ small.entryRamps.has (0#8).toNat = true ∧ small.entryRamps.has (1#8).toNat = false
    ∧ small.zones.has (0#8).toNat = true ∧ small.zones.has (2#8).toNat = false
    ∧ 12 < (List.replicate 13 0#8).length ∧ (List.replicate 12 0#8).length ≤ 12
    ∧ (∀ x ∈ [1#8, 0#8], small.zones.has x.toNat = true) ∧ ([1#8, 0#8].map BitVec.toNat).Nodup
    ∧ [1#8, 0#8].getLast? = some 0#8 ∧ ¬ ([0#8, 0#8].map BitVec.toNat).Nodup
    ∧ [0#8, 1#8].getLast? ≠ some 0#8 ∧ 4 ≤ (4#8).toNat ∧ 2 ≤ (2#8).toNat ∧ (3#8).toNat < 4 ∧ (1#8).toNat < 2
    ∧ 8 < (List.replicate 9 0#8).length ∧ [1#8, 0#8].length ≤ 8 := ⟨small_ready.2.1, by decide⟩
theorem witness_SetSignRecomputesTheTarget :
    small.ready .s0 .config ∧ SignFilter.ofCode (0#8).toNat = some .general ∧ [0#8, 1#8] ≠ []
    ∧ [0#8, 1#8].length ≤ 8 ∧ (∀ x ∈ [0#8, 1#8], small.zones.has x.toNat = true)
    ∧ ([0#8, 1#8].map BitVec.toNat).Nodup
    ∧ ∃ g n, small.signs.look 0 = some g ∧ small.node g.seg g.addr = some n :=
  ⟨small_ready.2.1, by decide, by decide, by decide, by decide, by decide, _, _, rfl, rfl⟩
/-- Sign 1 and filter 4 name nothing; nine zones; zone 2; zone 0 twice. -/
theorem witness_SetSignRecomputesTheTarget_refused :
    small.signs.has (1#8).toNat = false ∧ 3 < (4#8).toNat ∧ 8 < (List.replicate 9 0#8).length
    ∧ (∃ x ∈ [2#8], small.zones.has x.toNat = false) ∧ ¬ ([0#8, 0#8].map BitVec.toNat).Nodup
    ∧ (∀ x ∈ [0#8, 0#8], small.zones.has x.toNat = true) := by decide
theorem witness_RingEdits :
    small.ready .s0 .config ∧ (∀ x ∈ [0#8], small.zones.has x.toNat = true)
    ∧ ([0#8].map BitVec.toNat).Perm (small.shaftZones 0) ∧ ([0#8].map BitVec.toNat).Nodup
    ∧ small.shaftOf 0 = some 0 ∧ RotationMode.ofCode (1#8).toNat = some .rotating
    ∧ ∃ k, small.shafts.look 0 = some k ∧ 0 ∈ k.ring ∧ k.ring.Nodup ∧ k.mode = .fixed
        ∧ [0#8].map BitVec.toNat = k.ring ∧ k.ring.getLast? = some 0 :=
  ⟨small_ready.2.1, by decide, by decide, by decide, by decide, by decide, _, rfl, by decide, by decide, rfl, by decide, rfl⟩
/-- Shaft 1, zone 2 and mode 2 name nothing; zone 1 is of no shaft, and no list of shaft 0's zones. -/
theorem witness_RingEdits_refused :
    small.shafts.has (1#8).toNat = false ∧ small.shafts.has (0#8).toNat = true
    ∧ (∃ x ∈ [2#8], small.zones.has x.toNat = false) ∧ (∀ x ∈ [1#8], small.zones.has x.toNat = true)
    ∧ ¬ (([1#8].map BitVec.toNat).Perm (small.shaftZones 0) ∧ ([1#8].map BitVec.toNat).Nodup)
    ∧ small.shaftOf (1#8).toNat = none ∧ 1 < (2#8).toNat := by decide
theorem witness_PlantOverridesReachVentilation :
    small.ready .s0 .override ∧ small.smoke = none ∧ small.zones.look 0 = some ⟨0, some 0, 3⟩
    ∧ (small.vent.look 0).isSome = true ∧ small.status.look 0 = some .cold ∧ small.air.look 0 = some smallAir
    ∧ some (min 4 (5#8).toNat) ≠ ZoneStatus.cold.forcedStage ∧ flagOfCode (1#8).toNat = some true
    ∧ true ≠ ZoneStatus.cold.holdOut ∧ small.zones.has 2 = false ∧ 1 < (2#8).toNat := ⟨small_ready.2.2.1, by decide +kernel⟩
theorem witness_OverrideLightReachesLighting :
    small.ready .s0 .override ∧ small.smoke = none ∧ small.zones.has 0 = true ∧ small.status.look 0 = some .cold
    ∧ small.lights.look 0 = some smallLight ∧ some (min 100 (101#8).toNat) ≠ ZoneStatus.cold.forcedLight
    ∧ (255#8).toNat = 255 ∧ none ≠ ({ ZoneStatus.cold with forcedLight := some 100 } : ZoneStatus).forcedLight
    ∧ small.zones.has 2 = false :=
  ⟨small_ready.2.2.1, by decide +kernel⟩
theorem witness_CloseAndOpenZone :
    held.ready .s0 .override ∧ held.zones.has 0 = true ∧ held.status.look 0 = some .cold ∧ held.tablesRising = true
    ∧ ZoneStatus.cold.closure.supervisor = false
    ∧ ({ held with status := held.status.adjust 0 fun r => { r with closure := ⟨true, true, false⟩ } } : State).status.look 0
        = some { ZoneStatus.cold with closure := ⟨true, true, false⟩ }
    ∧ held.zones.has (2#8).toNat = false
    ∧ held.signs.look 0 = some ⟨0, 6, .general, [0], .full, .opened, none, none, none⟩ :=
  ⟨held_ready.2.2.1, by decide +kernel⟩
theorem witness_SupplyChangesCapacities :
    small.ready .s0 .override ∧ Supply.ofCode (0#8).toNat = some .normal ∧ Supply.ofCode (1#8).toNat = some .restricted
    ∧ 1 < (2#8).toNat ∧ small.supply = .normal ∧ small.supply ≠ .restricted ∧ (small.shafts.look 0).isSome = true
    ∧ small.lights.look 0 = some smallLight ∧ small.zones.has 0 = true := ⟨small_ready.2.2.1, by decide⟩
/-- Level 1 of 2, a live hold in an open zone; a zone held out; the shaft's drive and the JET drive on their own nodes. -/
theorem witness_SmokeEntersSmokeMode :
    held.ready .s2 .fire ∧ (1#8).toNat < held.levelCount ∧ held.smoke = none ∧ held.tablesRising = true
    ∧ (∀ n h, held.holds.look n = some h →
        held.zones.has h.zone = true ∧ held.status.has h.zone = true ∧ held.zoneOpen h.zone = true)
    ∧ ({ held with status := held.status.adjust 0 fun r => { r with holdOut := true } } : State).status.look 0
        = some { ZoneStatus.cold with holdOut := true }
    ∧ held.drives = small.drives ∧ held.lamps = small.lamps ∧ held.signs = small.signs :=
  ⟨held_ready.2.2.2, by decide +kernel, by decide +kernel, by decide +kernel,
    look_all (P := fun _ (h : Hold) => held.zones.has h.zone = true ∧ held.status.has h.zone = true ∧ held.zoneOpen h.zone = true)
      (by decide +kernel), by decide +kernel, rfl, rfl, rfl⟩
/-- Smoke at level 1, then level 0, level 1 again, and level 2 of a site with two. -/
theorem witness_SmokeStandsThenClears :
    smoking.ready .s2 .fire ∧ smoking.ready .s0 .override ∧ smoking.smoke = some 1 ∧ (0#8).toNat < smoking.levelCount
    ∧ 1 ≠ (0#8).toNat ∧ smoking.drives.rising = true ∧ smoking.zones.rising = true ∧ smoking.smoke = some (1#8).toNat
    ∧ smoking.levelCount ≤ (2#8).toNat ∧ smoking.smoke ≠ none ∧ smoking.drives = small.drives
    ∧ smoking.zones.has 0 = true ∧ (1#8).toNat ≤ 1 ∧ smoking.tablesRising = true ∧ small.ready .s2 .fire
    ∧ small.smoke = none := by unfold State.ready; decide +kernel
/-- Ports 3 and 4, sets 63 and 64, a locked port and one that is not. -/
theorem witness_RightsLocksAndNoticeSettings :
    small.ready .s0 .admin ∧ small.ready .s0 .read ∧ 3 < (4#8).toNat ∧ portOfNumber (3#8).toNat = some .s3
    ∧ 64 ≤ (64#8).toNat ∧ (63#8).toNat < 64 ∧ (small.ports.at .s3).locked = false
    ∧ ((small.withPort .s3 fun r => { r with locked := true }).ports.at .s3).locked = true
    ∧ flagOfCode (1#8).toNat = some true ∧ 1 < (2#8).toNat := ⟨small_ready.2.2.2.1, small_ready.1, by decide⟩

/-- S0 with FIELD_FAULT and BAY_CHANGE pending, BAY_CHANGE masked, and HOLD_END taken. -/
def noticed : State :=
  { small with notices := small.notices.adjust .s0 fun r =>
      { r with pending := 0x88, mask := 0x80, taken := 0x10, line := true } }
theorem noticed_ready : noticed.ready .s0 .read := by unfold State.ready; decide
theorem witness_PollAndAckNotices :
    noticed.ready .s0 .read ∧ setHas (noticed.notices.at .s0).pending .fieldFault = true
    ∧ setHas (noticed.notices.at .s0).mask .fieldFault = false
    ∧ (∀ d, setHas (noticed.notices.at .s0).taken d = true → NoticeClass.fieldFault.priority < d.priority)
    ∧ (∀ d, (setHas (noticed.notices.at .s0).pending d = true ∧ setHas (noticed.notices.at .s0).mask d = false) →
        NoticeClass.fieldFault.priority ≤ d.priority)
    ∧ setHas (noticed.notices.at .s0).taken .holdEnd = true
    ∧ (∀ d, setHas (noticed.notices.at .s0).taken d = true → NoticeClass.holdEnd.priority ≤ d.priority)
    ∧ (7#8).toNat ≤ 7 ∧ 8 ≤ (8#8).toNat := by
  refine ⟨noticed_ready, by decide, by decide, ?_, ?_, by decide, ?_, by decide, by decide⟩ <;>
    (intro d; cases d <;> decide)
theorem witness_PollAndAckNotices_none :
    small.ready .s0 .read ∧ (small.notices.at .s0).taken = 0
    ∧ ∀ c, setHas (small.notices.at .s0).pending c = false :=
  ⟨small_ready.1, by decide, by intro c; cases c <;> decide⟩
/-- Node 3 is no lamp's and no sign's. -/
theorem witness_RestartIsWarm :
    small.ready .s0 .admin ∧ small.smoke = none ∧ small.options = some smallOptions
    ∧ small.segs.look 0 = some smallSegment ∧ smallOptions.segments.getLsbD 0 = true
    ∧ small.bays.look 0 = some (smallBay 0) ∧ small.free.look 0 = some ⟨2, 0, 0, 0⟩ ∧ (small.gas.look 0).isSome = true
    ∧ small.air.look 0 = some smallAir ∧ (small.vent.look 0).isSome = true ∧ (small.shafts.look 0).isSome = true
    ∧ small.lights.look 0 = some smallLight ∧ small.zones.has 0 = true ∧ (small.signs.look 0).isSome = true
    ∧ smallNodes.look 3 = some (node .drive (some (.percent 30))) ∧ small.lamps.rising = true ∧ small.signs.rising = true
    ∧ (∀ e ∈ small.lamps, e.2.addr ≠ 3) ∧ ∀ e ∈ small.signs, e.2.addr ≠ 3 := ⟨small_ready.2.2.2.1, by decide +kernel⟩
/-- Node 5 is lamp channel 0's alone, in zone 0, and node 6 sign 0's alone. -/
theorem witness_RestartIsWarm_lit :
    let t := after (exec (.restart .s0) small)
    small.lamps.look 0 = some ⟨0, 0, 5⟩ ∧ small.lamps = [(0, ⟨0, 0, 5⟩)] ∧ small.zones.has 0 = true
    ∧ small.signs.look 0 = some ⟨0, 6, .general, [0], .full, .opened, none, none, none⟩ ∧ small.signs.length = 1
    ∧ (smallNodes.look 5).isSome = true ∧ (smallNodes.look 6).isSome = true ∧ (t.lights.look 0).isSome = true := by
  decide +kernel

/-- Smoke mode standing; and a site with no segment in use. -/
theorem witness_RestartIsWarm_locked : smoking.ready .s0 .admin ∧ smoking.smoke ≠ none := by unfold State.ready; decide
theorem witness_RestartIsWarm_noSegment :
    let s := { small with options := some { smallOptions with segments := 0 } }
    s.ready .s0 .admin ∧ s.smoke = none ∧ s.options = some { smallOptions with segments := 0 }
    ∧ (after (exec (.restart .s0) s)).part = .run := by unfold State.ready; decide +kernel

/-! #### The shared operations and the forms -/

/-- Shaft 0 with its zone wanted at 2 and taken for service, in either mode; `small_alone` has its drives' nodes. -/
theorem witness_ShaftRecomputation (mode : RotationMode) :
    let k : Shaft := ⟨mode, [0], [0], 40, 40, 0, 0⟩
    let v : VentZone := { VentZone.cold ⟨0, some 0, 3⟩ with wanted := 2, want := 20 }
    let s := { small with shafts := [(0, k)], vent := small.vent.adjust 0 fun _ => v }
    s.shafts.look 0 = some k ∧ k.ring.Nodup ∧ s.drives.rising = true ∧ s.vent.look 0 = some v ∧ v.floor ≤ v.want
    ∧ v.wanted ≤ 4 ∧ s.drives.look 0 = some ⟨.shaft 0 40, 0, 3, .available, none⟩
    ∧ s.drives.look 1 = some ⟨.jet 0, 0, 4, .available, none⟩ := by cases mode <;> decide
/-- The node of another shaft's AVAILABLE drive is none of those that shaft 0 commands. -/
theorem witness_ShaftRecomputation_frame :
    let s : State := { small with drives := small.drives ++ [(2, ⟨.shaft 1 10, 0, 62, .available, none⟩)] }
    s.drives.rising = true ∧ s.drives.look 2 = some (⟨.shaft 1 10, 0, 62, .available, none⟩ : Drive)
    ∧ ∀ d x, s.drives.look d = some x → x.avail = .available →
        (∃ rated, x.duty = .shaft 0 rated) ∨ (∃ z ∈ [0], x.duty = .jet z) → ¬ (x.seg = 0 ∧ x.addr = 62) := by
  refine ⟨by decide, by decide, fun d x h _ hd hn => ?_⟩
  have := look_all (P := fun _ (x : Drive) => x.addr = 62 → x.duty = .shaft 1 10) (by decide) d x h hn.2
  simp [this] at hd
theorem witness_AllocationAndSmoothingBounds :
    let cs : List Claim := [⟨0, 1, 10, 4⟩, ⟨1, 2, 20, 5⟩]
    (∀ c ∈ cs, c.floor ≤ c.want) ∧ 8 < (cs.map Claim.floor).sum ∧ (cs.map Claim.want).sum ≤ 30
    ∧ 1 ≤ 16 ∧ 16 ≤ 16 ∧ 680 < 681 := by decide
/-- A step from the small site, with a live hold, that every form's hypothesis admits. -/
theorem witness_forms :
    let s := { held with pending := [.releaseHold .s1 63 0] }
    s.linesSound = true ∧ s.countsSound = true ∧ s.tablesRising = true ∧ s.endsSound = true ∧ s.fireSound = true
    ∧ s.escortsSound = true ∧ setpointsLegal s.setpoints = true ∧ ∃ t, step s = .next t :=
  ⟨by decide +kernel, by decide +kernel, by decide +kernel, by decide +kernel, by decide +kernel, by decide +kernel,
    by decide +kernel, _, rfl⟩

/-- A step that raises a zone's wanted stage, from a site whose shafts stand recomputed. -/
theorem witness_ShaftsStayRecomputed :
    let s := { served with pending := [.overrideStage .s0 0 4] }
    s.tablesRising = true ∧ setpointsLegal s.setpoints = true ∧ s.plantFormed = true ∧ s.plantShared = true
    ∧ ∃ t, step s = .next t ∧ t.shafts ≠ s.shafts :=
  ⟨by decide +kernel, by decide +kernel, by decide +kernel, by decide +kernel, _, rfl, by decide +kernel⟩

end Sys2Proof.Tests
end

section
/-! What a hold that ends leaves of its slot, its bay and its port's end list, and the request that ends one (R150, R155). -/

namespace Sys2Proof.Machine

/-! ### The reply to a request -/

/-- A reply keeps what two states share, and starts alike at the port in both (R188). -/
theorem Keeps.send {k : Touch} {s t : State} (h : Keeps k s t) (p : Port) (code : Byte) (status : Status)
    (data : List Byte) : Keeps k (s.send p code status data) (t.send p code status data) :=
  { h with ports := fun w => by simp only [State.send, State.onPort_ports, h.ports w, h.rate] }

/-- What happens between a block's work and the end of its reply. -/
def Touch.replying : Touch := { segs := true, signs := true, notices := true, ports := true }

/-- A served request keeps its block's work but for the hand-over of free counts and the reply, and it touches what its
block touches beside what a request that changes nothing leaves. -/
theorem request_served_frame {k : Touch} (p : Port) (c : Catalogued) (b : State → Served) (s t : State) (data : List Byte)
    (ready : s.ready p c.right) (served : b (s.taken p) = .served t fun _ => data) (work : Does k (s.taken p) t)
    (w : Touch.within .handed k = true) :
    ∃ u, request p c b s = .next u ∧ Keeps .replying t u ∧ Keeps k (s.answering p c.code .ok data) u := by
  have handed := does_handCounts (s.taken p) t
  refine ⟨_, request_served p c b s t _ ready served, ?_, ?_⟩
  · exact ((handed.mono rfl).trans ((does_send _ p c.code .ok data).mono rfl)).keeps
  · rw [← taken_send]
    exact (work.trans (handed.mono w)).keeps.send p c.code .ok data

/-- A request that its block refuses changes nothing but the reply and the record of it. -/
theorem request_refused_answering (p : Port) (c : Catalogued) (b : State → Served) (s : State) (w : Status)
    (h : s.ready p c.right) (e : b (s.taken p) = .refused w) :
    request p c b s = .next (s.answering p c.code w []) := by
  rw [request_refused p c b s w h e, taken_send]

@[simp] theorem taken_bays (s : State) (p : Port) : (s.taken p).bays = s.bays := (does_taken s p).keeps.bays rfl
@[simp] theorem taken_holds (s : State) (p : Port) : (s.taken p).holds = s.holds := (does_taken s p).keeps.holds rfl
@[simp] theorem taken_ends (s : State) (p : Port) : (s.taken p).ends = s.ends := (does_taken s p).keeps.ends rfl
@[simp] theorem taken_timebase (s : State) (p : Port) : (s.taken p).timebase = s.timebase :=
  (does_taken s p).keeps.timebase rfl

/-! ### The ending of a hold -/

/-- The entry of a hold's end list that a hold ending now leaves (R150 step 4). -/
def State.endEntry (s : State) (slot : Nat) (h : Hold) (cause : EndCause) : EndEntry :=
  ⟨slot, h.bay, h.zone, cause, s.timebase - h.created⟩

/-- The part of a hold's ending that its route sees (R150 step 3). -/
theorem does_leaveRoute (s : State) (zs : List Nat) :
    Does { segs := true, escorts := true, lights := true } s
      ((s.forAll zs State.lowerEscort).forAll zs State.escortEnd) :=
  ((Does.forAll (fun t z => does_lowerEscort t z) s zs).mono rfl).trans
    ((Does.forAll (fun t z => does_escortEnd t z) _ zs).mono rfl)

theorem endHold_holds {s : State} {slot : Nat} {h : Hold} (cause : EndCause) (hl : s.holds.look slot = some h) :
    (s.endHold slot cause).holds = s.holds.remove slot := by
  simp only [State.endHold, hl, State.raiseFor_holds]
  rw [(does_leaveRoute _ h.route).keeps.holds rfl, (does_writeBay _ h.bay _ (by intro _; rfl)).keeps.holds rfl]

theorem endHold_bays {s : State} {slot : Nat} {h : Hold} (cause : EndCause) (hl : s.holds.look slot = some h) :
    (s.endHold slot cause).bays = s.bays.adjust h.bay fun b => { b with hold := none } := by
  simp only [State.endHold, hl, State.raiseFor_bays]
  rw [(does_leaveRoute _ h.route).keeps.bays rfl, writeBay_bays]

theorem endHold_ends {s : State} {slot : Nat} {h : Hold} (cause : EndCause) (hl : s.holds.look slot = some h) :
    (s.endHold slot cause).ends = s.ends.adjust h.port fun l => l.append (s.endEntry slot h cause) := by
  simp only [State.endHold, hl, State.raiseFor_ends]
  rw [(does_leaveRoute _ h.route).keeps.ends rfl, (does_writeBay _ h.bay _ (by intro _; rfl)).keeps.ends rfl]
  rfl

/-! ### RELEASE HOLD -/

/-- What RELEASE HOLD touches beside its port: the ending of a hold, and the hand-over of free counts. -/
def Touch.releasing : Touch := { Touch.holdEnd with signs := true }

theorem exec_releaseHold (p : Port) (n : Byte) (b : BitVec 16) (s : State) :
    exec (.releaseHold p n b) s = request p releaseHoldRow (serveReleaseHold n b) s := rfl

section
variable {n : Byte} {b : BitVec 16} {s : State}

theorem serveReleaseHold_of_slot_high (hn : 64 ≤ n.toNat) : serveReleaseHold n b s = .refused .outOfRange := by
  simp [serveReleaseHold, demand, Nat.not_lt.2 hn]

theorem serveReleaseHold_of_no_bay (hn : n.toNat < 64) (hb : s.bays.has b.toNat = false) :
    serveReleaseHold n b s = .refused .outOfRange := by
  simp [serveReleaseHold, demand, hn, hb]

theorem serveReleaseHold_of_no_hold (hn : n.toNat < 64) (hb : s.bays.has b.toNat = true)
    (hh : ∀ h, s.holds.look n.toNat = some h → h.bay ≠ b.toNat) : serveReleaseHold n b s = .refused .noHold := by
  cases hl : s.holds.look n.toNat with
  | none => simp [serveReleaseHold, demand, hn, hb, hl]
  | some h => simp [serveReleaseHold, demand, hn, hb, hl, hh h hl]

theorem serveReleaseHold_of_hold {h : Hold} (hn : n.toNat < 64) (hb : s.bays.has b.toNat = true)
    (hl : s.holds.look n.toNat = some h) (hbay : h.bay = b.toNat) :
    serveReleaseHold n b s = .served (s.endHold n.toNat .released) fun _ =>
      u8 n.toNat ++ u16 b.toNat ++ u16 (s.timebase - h.created) := by
  simp [serveReleaseHold, demand, hn, hb, hl, hbay]

end

/-- Settles O36: a refusal is the port unit's reply alone; a release is the ending of the hold, which no later part of
the request's event changes. -/
theorem releaseHoldEndsTheHold : Obligations.ReleaseHoldEndsTheHold := by
  unfold Obligations.ReleaseHoldEndsTheHold
  intro p n b s ready
  refine ⟨fun hn => ?_, fun hn hb => ?_, fun hn hb hh => ?_, fun h hn hb hl hbay => ?_⟩
  · exact request_refused_answering p releaseHoldRow _ s _ ready (serveReleaseHold_of_slot_high hn)
  · exact request_refused_answering p releaseHoldRow _ s _ ready (serveReleaseHold_of_no_bay hn (by simpa using hb))
  · exact request_refused_answering p releaseHoldRow _ s _ ready
      (serveReleaseHold_of_no_hold hn (by simpa using hb) (by simpa using hh))
  · have taken_look : (s.taken p).holds.look n.toNat = some h := by simpa using hl
    have served := serveReleaseHold_of_hold (s := s.taken p) hn (by simpa using hb) taken_look hbay
    rw [taken_timebase] at served
    obtain ⟨t, ht, after, frame⟩ := request_served_frame p releaseHoldRow _ s _ _ ready served
      ((does_endHold _ n.toNat .released).mono (b := .releasing) rfl) rfl
    have holds := (after.holds rfl).trans (endHold_holds .released taken_look)
    have bays := (after.bays rfl).trans (endHold_bays .released taken_look)
    have ends := (after.ends rfl).trans (endHold_ends .released taken_look)
    refine ⟨t, ht, ?_, ?_, fun q hq => ?_, fun r hr => ?_, fun b' hb' => ?_, frame⟩
    · simpa using holds
    · simp [ends, State.endEntry, hbay]
    · simp [ends, Quad.at_adjust, hq]
    · simp [bays, Table.look_adjust, hbay, hr]
    · simp [bays, Table.look_adjust, hbay, hb']

end Sys2Proof.Machine
end

section
/-! The selection of a zone and a bay: the order of candidates and its winner, and the bay of a tier (R142 to R146). -/

namespace Sys2Proof.Machine

/-! ### Candidates -/

theorem tierFree_pos (s : State) (z : Nat) (tier : List BayKind) :
    0 < s.tierFree z tier ↔ ∃ k ∈ tier, 0 < (s.freeOf z).ofKind k := by
  simp [State.tierFree, Nat.pos_iff_ne_zero, List.sum_eq_zero_iff]

theorem mem_candidates (s : State) (entry : Nat) (tier : List BayKind) (z : Nat) :
    z ∈ s.candidates entry tier ↔ s.zones.has z = true ∧ s.zoneOpen z = true ∧ (∃ r, s.routeOf entry z = some r)
      ∧ ∃ k ∈ tier, 0 < (s.freeOf z).ofKind k := by
  simp [State.candidates, State.zoneList, Table.mem_places_iff_has, Option.isSome_iff_exists, tierFree_pos, and_assoc]

/-! ### Scores -/

theorem airBand_of_look {s : State} {z : Nat} {a : AirZone} (h : s.air.look z = some a) :
    s.airBand z = if a.loss = true ∨ s.sp 9 ≤ a.demand then 3 else if s.sp 8 ≤ a.demand then 2
      else if s.sp 7 ≤ a.demand then 1 else 0 := by
  simp only [State.airBand, h, State.bandOf, State.threshold]
  by_cases hl : a.loss = true <;> simp [hl]

theorem score_of_look {s : State} {entry z : Nat} {route : List Nat} {a : AirZone} (c : VehicleClass)
    (hr : s.routeOf entry z = some route) (ha : s.air.look z = some a) :
    s.score entry c z = 10 * route.length + 25 * s.airBand z + if c = .diesel ∧ s.sp 8 ≤ a.demand then 50 else 0 := by
  simp only [State.score, hr, State.demandOf, ha, State.threshold, ge_iff_le, Nat.mul_comm]

/-! ### The winner -/

/-- Candidate `w` is no worse than `z` in the order of R145: the lower score, then the greater tier free
count, then the lower number. -/
def State.noWorse (s : State) (entry : Nat) (c : VehicleClass) (tier : List BayKind) (w z : Nat) : Prop :=
  s.score entry c w < s.score entry c z
    ∨ (s.score entry c w = s.score entry c z
        ∧ (s.tierFree z tier < s.tierFree w tier ∨ (s.tierFree z tier = s.tierFree w tier ∧ w ≤ z)))

section
variable {s : State} {entry : Nat} {c : VehicleClass} {tier : List BayKind} {v w z : Nat}

theorem noWorse_refl : s.noWorse entry c tier w w := .inr ⟨rfl, .inr ⟨rfl, le_rfl⟩⟩

theorem noWorse_trans (h : s.noWorse entry c tier v w) (g : s.noWorse entry c tier w z) :
    s.noWorse entry c tier v z := by
  unfold State.noWorse at *
  omega

/-- A candidate beats another exactly where the other is worse. -/
theorem beats_iff : s.beats entry c tier z w = true ↔ ¬ s.noWorse entry c tier w z := by
  unfold State.beats State.noWorse
  split
  · split <;> simp <;> omega
  · simp; omega

theorem noWorse_total : s.noWorse entry c tier w z ∨ s.noWorse entry c tier z w := by
  unfold State.noWorse
  omega

theorem winner_eq_none {zs : List Nat} : s.winner entry c tier zs = none ↔ zs = [] := by
  cases zs with
  | nil => simp [State.winner]
  | cons z zs =>
    simp only [State.winner, reduceCtorEq, iff_false]
    split
    · simp
    · split <;> simp

/-- The winner is one of the candidates and no worse than any. -/
theorem winner_spec {zs : List Nat} (h : s.winner entry c tier zs = some w) :
    w ∈ zs ∧ ∀ z ∈ zs, s.noWorse entry c tier w z := by
  induction zs generalizing w with
  | nil => simp [State.winner] at h
  | cons x xs ih =>
    cases hv : s.winner entry c tier xs with
    | none =>
      obtain rfl := winner_eq_none.1 hv
      obtain rfl : x = w := by simpa [State.winner] using h
      simp [noWorse_refl]
    | some v =>
      obtain ⟨mem, against⟩ := ih hv
      simp only [State.winner, hv] at h
      by_cases hb : s.beats entry c tier x v = true
      · obtain rfl : x = w := by simpa [hb] using h
        have front : s.noWorse entry c tier x v := noWorse_total.resolve_right (beats_iff.1 hb)
        simp only [List.mem_cons, true_or, forall_eq_or_imp, true_and]
        exact ⟨noWorse_refl, fun z hz => noWorse_trans front (against z hz)⟩
      · obtain rfl : v = w := by simpa [hb] using h
        have kept : s.noWorse entry c tier v x := not_not.1 (mt beats_iff.2 hb)
        simp only [List.mem_cons, mem, or_true, forall_eq_or_imp, true_and]
        exact ⟨kept, against⟩

end

/-! ### The bay of a tier -/

/-- A bay of a zone and kind that counts as free (R62, R146). -/
def State.countable (s : State) (z : Nat) (k : BayKind) (b : Nat) : Prop :=
  ∃ r, s.bays.look b = some r ∧ r.zone = z ∧ r.kind = k ∧ r.occ = .free ∧ r.hold = none ∧ r.outOfUse = false

/-- In a table in canonical form, a listed entry is the one that its place looks up. -/
theorem Table.look_of_mem {α : Type} {t : Table α} (ht : t.rising = true) {k : Nat} {v : α} (h : (k, v) ∈ t) :
    t.look k = some v := by
  induction t with
  | nil => simp at h
  | cons e t ih =>
    obtain ⟨j, w⟩ := e
    obtain ⟨low, rest⟩ := List.pairwise_cons.1 ((Table.rising_iff _).1 ht)
    rcases List.mem_cons.1 h with here | later
    · cases here; simp [Table.look]
    · have apart : j ≠ k := (low _ later).ne
      simp [Table.look, apart, ih ((Table.rising_iff _).2 rest) later]

/-- In a table in canonical form, the first entry that passes a test has the lowest place of those that do. -/
theorem Table.find?_lowest {α : Type} {t : Table α} (ht : t.rising = true) {test : Nat × α → Bool} {e e' : Nat × α}
    (h : t.find? test = some e) (he' : e' ∈ t) (passes : test e' = true) : e.1 ≤ e'.1 := by
  obtain ⟨-, before, after, rfl, fails⟩ := List.find?_eq_some_iff_append.1 h
  rcases List.mem_append.1 he' with early | late
  · exact absurd passes (by simpa using fails _ early)
  · rcases List.mem_cons.1 late with rfl | later
    · exact le_rfl
    · have rest := (List.pairwise_append.1 ((Table.rising_iff _).1 ht)).2.1
      exact ((List.pairwise_cons.1 rest).1 e' later).le

theorem lowestFree_spec {s : State} {z b : Nat} {k : BayKind} (hs : s.bays.rising = true)
    (h : s.lowestFree z k = some b) : s.countable z k b ∧ ∀ b', s.countable z k b' → b ≤ b' := by
  obtain ⟨⟨j, r⟩, found, rfl⟩ := Option.map_eq_some_iff.1 h
  constructor
  · have passes := List.find?_some found
    refine ⟨r, Table.look_of_mem hs (List.mem_of_find?_eq_some found), ?_⟩
    simpa [Bay.counted, and_assoc] using passes
  · rintro b' ⟨r', hr', hz, hk, hocc, hhold, huse⟩
    exact Table.find?_lowest hs found (Table.mem_of_look hr') (by simp [Bay.counted, hz, hk, hocc, hhold, huse])

/-- A zone with a free count of a kind has a bay that counts (R62). -/
theorem lowestFree_ne_none {s : State} {z : Nat} {k : BayKind} (hs : s.countsSound = true)
    (h : 0 < (s.freeOf z).ofKind k) : s.lowestFree z k ≠ none := by
  have counted : 0 < countFree s.bays z k := by
    unfold State.freeOf at h
    cases hl : s.free.look z with
    | none => rw [hl] at h; cases k <;> simp [FreeCounts.ofKind] at h
    | some f =>
      obtain rfl : f = countsOf s.bays z := (countsSound_iff s).1 hs _ (Table.mem_of_look hl)
      rw [hl] at h; cases k <;> exact h
  obtain ⟨e, he⟩ := List.exists_mem_of_length_pos counted
  obtain ⟨mem, passes⟩ := List.mem_filter.1 he
  simp only [State.lowestFree, ne_eq, Option.map_eq_none_iff]
  exact fun missing => List.find?_eq_none.1 missing e mem passes

/-- The bay of a tier is that of its first kind with a free count (R146). -/
theorem tierBay_spec {s : State} {z b : Nat} {tier : List BayKind} (h : s.tierBay z tier = some b) :
    ∃ before k after, tier = before ++ k :: after ∧ (∀ j ∈ before, (s.freeOf z).ofKind j = 0)
      ∧ 0 < (s.freeOf z).ofKind k ∧ s.lowestFree z k = some b := by
  induction tier with
  | nil => simp [State.tierBay] at h
  | cons k ks ih =>
    simp only [State.tierBay] at h
    split at h
    · rename_i free
      exact ⟨[], k, ks, rfl, by simp, free, h⟩
    · rename_i bare
      obtain ⟨before, k', after, rfl, empty, free, low⟩ := ih h
      exact ⟨k :: before, k', after, rfl, by simpa [Nat.eq_zero_of_not_pos bare] using empty, free, low⟩

theorem tierBay_ne_none {s : State} {z : Nat} {tier : List BayKind} (hs : s.countsSound = true)
    (h : ∃ k ∈ tier, 0 < (s.freeOf z).ofKind k) : s.tierBay z tier ≠ none := by
  induction tier with
  | nil => simp at h
  | cons k ks ih =>
    simp only [State.tierBay]
    split
    · exact lowestFree_ne_none hs ‹_›
    · rename_i bare
      obtain ⟨j, hj, free⟩ := h
      rcases List.mem_cons.1 hj with rfl | later
      · exact absurd free bare
      · exact ih ⟨j, later, free⟩

/-! ### The passes -/

theorem select_cons_of_no_candidate {s : State} {entry : Nat} {c : VehicleClass} {tier : List BayKind}
    (more : List (List BayKind)) (h : s.candidates entry tier = []) :
    s.select entry c (tier :: more) = s.select entry c more := by
  simp [State.select, h, State.winner]

theorem select_cons_of_winner {s : State} {entry w b : Nat} {c : VehicleClass} {tier : List BayKind}
    (more : List (List BayKind)) (hw : s.winner entry c tier (s.candidates entry tier) = some w)
    (hb : s.tierBay w tier = some b) : s.select entry c (tier :: more) = some (w, b) := by
  simp [State.select, hw, hb]

theorem tiers_kind (k : BayKind) (c : VehicleClass) : tiers (some k) c = [[k]] := rfl

theorem tiers_any (c : VehicleClass) :
    tiers none c = if c = .electric then [[.charger], [.standard, .wide]] else [[.standard, .wide]] := by
  cases c <;> rfl

/-- Settles O35: the winner by induction on the candidates in the total order of R145, the bay by induction on the
tier. -/
theorem selectionPicksTheWinnersBay : Obligations.SelectionPicksTheWinnersBay := by
  unfold Obligations.SelectionPicksTheWinnersBay
  refine ⟨fun c => ⟨fun k => tiers_kind k c, tiers_any c⟩, fun s entry c tier => ?_⟩
  refine ⟨mem_candidates s entry tier, fun z => rfl, fun z a ha => airBand_of_look ha,
    fun z route a hr ha => score_of_look c hr ha, fun zs => ⟨mt winner_eq_none.1, fun w hw => winner_spec hw⟩,
    fun z b hs hb => ?_, fun z hs hz => ?_, rfl, fun more h => select_cons_of_no_candidate more h,
    fun more w b hw hb => select_cons_of_winner more hw hb⟩
  · obtain ⟨before, k, after, split, empty, free, low⟩ := tierBay_spec hb
    obtain ⟨counts, lowest⟩ := lowestFree_spec hs low
    exact ⟨before, k, after, split, empty, free, counts, lowest⟩
  · obtain ⟨-, -, -, free⟩ := (mem_candidates s entry tier z).1 hz
    exact tierBay_ne_none hs free

end Sys2Proof.Machine
end

section
/-! The requests that set a port's rights and its notice settings (R190, R191, R202). -/

namespace Sys2Proof.Machine

/-! ### The reply after a change of one record -/

/-- Two changes of the ports' values that commute on one value commute on the four. -/
theorem Quad.adjust_comm {α : Type} (quad : Quad α) (p q : Port) {f g : α → α} (h : ∀ a, f (g a) = g (f a)) :
    (quad.adjust p g).adjust q f = (quad.adjust q f).adjust p g := by
  cases p <;> cases q <;> simp [Quad.adjust, h]

/-- A reply starts alike before and after a change of a port's record that leaves its transmitter alone (R188). -/
theorem send_onPort (s : State) (p q : Port) (code : Byte) (status : Status) (data : List Byte)
    {f : PortRecord → PortRecord} (h : ∀ r tx, f { r with tx := tx } = { f r with tx := tx }) :
    (s.onPort q f).send p code status data = (s.send p code status data).onPort q f := by
  simp only [State.send, State.onPort]
  rw [Quad.adjust_comm _ p q fun r => h r _]

/-- A request whose block makes a change that leaves the free counts and the port's transmitter alone hands nothing over
(R63): the change stands beside what a request that changes nothing leaves. -/
theorem request_served_beside (p : Port) (c : Catalogued) (b : State → Served) (s : State) (change : State → State)
    {data : State → List Byte} {answer : List Byte} (ready : s.ready p c.right)
    (served : b (s.taken p) = .served (change (s.taken p)) data) (free : (change (s.taken p)).free = (s.taken p).free)
    (apart : (change (s.taken p)).send p c.code .ok answer = change ((s.taken p).send p c.code .ok answer))
    (reply : data (change (s.taken p)) = answer) :
    request p c b s = .next (change (s.answering p c.code .ok answer)) := by
  have unhanded : State.handCounts (s.taken p) (change (s.taken p)) = change (s.taken p) :=
    handCounts_same _ _ fun z => by simp only [State.freeOf, free]
  rw [request_served p c b s _ data ready served, replied, unhanded, reply, apart, taken_send]

/-! ### What the taking of a request leaves of the ports -/

theorem taken_ports (s : State) (p : Port) :
    (s.taken p).ports = s.ports.adjust p fun r => { r with rx := .idle, lastRequest := s.timebase } := by
  simp only [State.taken]
  split <;> rfl

@[simp] theorem taken_role (s : State) (p q : Port) : ((s.taken p).ports.at q).role = (s.ports.at q).role := by
  rw [taken_ports, Quad.at_adjust]
  split <;> rfl

@[simp] theorem taken_rights (s : State) (p q : Port) : ((s.taken p).ports.at q).rights = (s.ports.at q).rights := by
  rw [taken_ports, Quad.at_adjust]
  split <;> rfl

@[simp] theorem taken_locked (s : State) (p q : Port) : ((s.taken p).ports.at q).locked = (s.ports.at q).locked := by
  rw [taken_ports, Quad.at_adjust]
  split <;> rfl

/-- The start of a reply is no part of a port's silence (R193). -/
@[simp] theorem silence_send (s : State) (p q : Port) (code : Byte) (status : Status) (data : List Byte) :
    (s.send p code status data).silence q = s.silence q := by
  simp only [State.silence, State.send, State.onPort_timebase, State.onPort_ports, Quad.at_adjust]
  split <;> rfl

/-! ### SET RIGHTS and LOCK RIGHTS -/

theorem portOfNumber_of_high {n : Nat} (h : 3 < n) : portOfNumber n = none := by
  obtain ⟨k, rfl⟩ := Nat.exists_eq_add_of_le' h
  rfl

/-- A byte without bits 6 and 7 is a number below 64. -/
theorem bits_6_7_clear (b : Byte) : (!b.getLsbD 6 && !b.getLsbD 7) = decide (b.toNat < 64) := by
  have low : b.toNat < 256 := b.isLt
  rw [Bool.eq_iff_iff]
  simp only [BitVec.getLsbD, Nat.testBit_eq_decide_div_mod_eq, Bool.and_eq_true, Bool.not_eq_true',
    decide_eq_false_iff_not, decide_eq_true_eq]
  omega

/-- The rights that a port of a role stores for a written set (R190). -/
theorem legal_eq (role : Option Role) (r : Rights) : r.legal role = { r with fire := decide (role = some .fire) } := by
  simp [Rights.legal, beq_eq_decide]

/-- A port with a rights set stored. -/
def State.withRights (s : State) (q : Port) (legal : Rights) : State := s.onPort q fun r => { r with rights := legal }

/-- The lapse condition has ended, where it is said to have (R127). -/
def State.lapseEndsIf (s : State) (ends : Bool) : State :=
  { s with lapse := if ends then .watching else s.lapse, lapseHolds := if ends then false else s.lapseHolds }

/-- Whether the storing of a legal set at a port ends the lapse condition (R190, R193). -/
def State.rightsEndLapse (s : State) (q : Port) (legal : Rights) : Bool :=
  legal.override && decide (s.silence q < s.silenceLimit)

section
variable (s : State) (p q : Port) (code : Byte) (status : Status) (data : List Byte) (legal : Rights) (ends : Bool)

theorem withRights_lapseEndsIf_rights : (((s.withRights q legal).lapseEndsIf ends).ports.at q).rights = legal := by
  simp [State.withRights, State.lapseEndsIf]

theorem send_withRights_lapseEndsIf : ((s.withRights q legal).lapseEndsIf ends).send p code status data =
    ((s.send p code status data).withRights q legal).lapseEndsIf ends :=
  congrArg (State.lapseEndsIf · ends) (send_onPort s p q code status data fun _ _ => rfl)

theorem rightsEndLapse_taken :
    (s.taken p).rightsEndLapse q legal = (s.answering p code status data).rightsEndLapse q legal := by
  rw [← taken_send]
  simp only [State.rightsEndLapse, silence_send]
  rfl

theorem lapseEndsIf_eq : s.lapseEndsIf ends = if ends then s.lapseEnds else s := by
  cases ends <;> rfl

theorem storeRights_eq (written : Rights) :
    s.storeRights q written =
      (s.withRights q (written.legal (s.ports.at q).role)).lapseEndsIf
        (s.rightsEndLapse q (written.legal (s.ports.at q).role)) := by
  rw [lapseEndsIf_eq]
  rfl

end

theorem exec_setRights (p : Port) (x b : Byte) (s : State) :
    exec (.setRights p x b) s = request p setRightsRow (serveSetRights x b) s := rfl

theorem exec_lockRights (p : Port) (x : Byte) (s : State) :
    exec (.lockRights p x) s = request p lockRightsRow (serveLockRights x) s := rfl

section
variable {p q : Port} {x b : Byte} {s : State}

theorem withPort_of_high (next : Port → Served) (h : 3 < x.toNat) : withPort x next = .refused .outOfRange := by
  simp [withPort, portOfNumber_of_high h]

theorem withPort_of_named (next : Port → Served) (h : portOfNumber x.toNat = some q) : withPort x next = next q := by
  simp [withPort, h]

theorem serveSetRights_of_named (named : portOfNumber x.toNat = some q) :
    serveSetRights x b s =
      if b.toNat < 64 then
        if (s.ports.at q).locked = false then
          .served (s.storeRights q (Rights.ofByte b)) fun t => [x, (t.ports.at q).rights.byte]
        else .refused .locked
      else .refused .outOfRange := by
  rw [serveSetRights, withPort_of_named _ named, bits_6_7_clear]
  simp [demand]

/-- What SET RIGHTS leaves where its checks pass: the legal set stored, the lapse condition ended where that set gives
OVERRIDE to a port that is not silent, and the reply. -/
theorem exec_setRights_of_unlocked (ready : s.ready p .admin) (named : portOfNumber x.toNat = some q)
    (low : b.toNat < 64) (unlocked : (s.ports.at q).locked = false) {legal : Rights}
    (stored : (Rights.ofByte b).legal (s.ports.at q).role = legal) :
    exec (.setRights p x b) s = .next (((s.answering p 0x60 .ok [x, legal.byte]).withRights q legal).lapseEndsIf
      ((s.taken p).rightsEndLapse q legal)) := by
  have served := serveSetRights_of_named (b := b) (s := s.taken p) named
  simp only [low, taken_locked, unlocked, storeRights_eq, taken_role, stored, ↓reduceIte] at served
  rw [exec_setRights]
  exact request_served_beside p setRightsRow _ s
    (fun t => (t.withRights q legal).lapseEndsIf ((s.taken p).rightsEndLapse q legal)) ready served rfl
    (send_withRights_lapseEndsIf _ p q _ _ _ legal _) (by rw [withRights_lapseEndsIf_rights])

/-- What LOCK RIGHTS leaves: the lock set, and the reply. -/
theorem exec_lockRights_of_named (ready : s.ready p .admin) (named : portOfNumber x.toNat = some q) :
    exec (.lockRights p x) s = .next ((s.answering p 0x61 .ok [x, (s.ports.at q).rights.byte, 1#8]).withPort q
      fun r => { r with locked := true }) := by
  rw [exec_lockRights]
  exact request_served_beside p lockRightsRow _ s (·.onPort q fun r => { r with locked := true }) ready
    (withPort_of_named _ named) rfl (send_onPort _ p q _ _ _ fun _ _ => rfl) (by simp [flagField, u8])

end

/-! ### SET ROUTING, SET NOTICE MASK and SET AUTO ACK -/

theorem exec_setRouting (p : Port) (x b : Byte) (s : State) :
    exec (.setRouting p x b) s = request p setRoutingRow (serveSetRouting x b) s := rfl

theorem exec_setNoticeMask (p : Port) (b : Byte) (s : State) :
    exec (.setNoticeMask p b) s = request p setNoticeMaskRow (serveSetNoticeMask p b) s := rfl

theorem exec_setAutoAck (p : Port) (b : Byte) (s : State) :
    exec (.setAutoAck p b) s = request p setAutoAckRow (serveSetAutoAck p b) s := rfl

theorem flagOfCode_of_high {n : Nat} (h : 1 < n) : flagOfCode n = none := by
  obtain ⟨k, rfl⟩ := Nat.exists_eq_add_of_le' h
  rfl

section
variable {p q : Port} {x b : Byte} {s : State}

/-- A request whose block changes one notice record leaves that change beside the reply. -/
theorem request_onNotice (c : Catalogued) (block : State → Served) (f : NoticeRecord → NoticeRecord)
    {data : State → List Byte} {answer : List Byte} (ready : s.ready p c.right)
    (served : block (s.taken p) = .served ((s.taken p).onNotice q f) data)
    (reply : data ((s.taken p).onNotice q f) = answer) :
    request p c block s = .next ((s.answering p c.code .ok answer).onNotice q f) :=
  request_served_beside p c block s (·.onNotice q f) ready served rfl rfl reply

theorem exec_setRouting_of_named (ready : s.ready p .admin) (named : portOfNumber x.toNat = some q) :
    exec (.setRouting p x b) s =
      .next ((s.answering p 0x62 .ok [b]).onNotice q fun r => { r with routing := b }) := by
  rw [exec_setRouting]
  exact request_onNotice setRoutingRow _ _ ready (withPort_of_named _ named) (by simp)

theorem exec_setNoticeMask_of_ready (ready : s.ready p .read) :
    exec (.setNoticeMask p b) s =
      .next ((s.answering p 0x63 .ok [b]).onNotice p fun r => { r with mask := b }.reevaluate) := by
  rw [exec_setNoticeMask]
  exact request_onNotice setNoticeMaskRow _ _ ready rfl (by simp [NoticeRecord.reevaluate])

theorem serveSetAutoAck_of_flag {flag : Bool} (code : flagOfCode b.toNat = some flag) :
    serveSetAutoAck p b s = .served (s.onNotice p fun r => { r with autoAck := flag })
      fun t => flagField (t.notices.at p).autoAck := by
  simp [serveSetAutoAck, code]

theorem exec_setAutoAck_of_flag {flag : Bool} (ready : s.ready p .read) (code : flagOfCode b.toNat = some flag) :
    exec (.setAutoAck p b) s =
      .next ((s.answering p 0x64 .ok (flagField flag)).onNotice p fun r => { r with autoAck := flag }) := by
  rw [exec_setAutoAck]
  exact request_onNotice setAutoAckRow _ _ ready (serveSetAutoAck_of_flag code) (by simp)

theorem serveSetAutoAck_of_high (h : 1 < b.toNat) : serveSetAutoAck p b s = .refused .outOfRange := by
  simp [serveSetAutoAck, flagOfCode_of_high h]

end

/-- Settles O49: each request is refused by its block or leaves its block's change of one record beside the reply. -/
theorem rightsLocksAndNoticeSettings : Obligations.RightsLocksAndNoticeSettings := by
  unfold Obligations.RightsLocksAndNoticeSettings
  refine ⟨fun p q x b s ready => ⟨fun high => ⟨?_, ?_⟩, fun named => ⟨fun high => ?_, fun low locked => ?_,
    fun low unlocked => ?_, exec_lockRights_of_named ready named⟩⟩, fun p x b s => ⟨fun ready high => ?_,
    fun q ready named => exec_setRouting_of_named ready named, fun ready => ?_,
    fun flag ready code => exec_setAutoAck_of_flag ready code, fun ready high => ?_⟩⟩
  · exact request_refused_answering p setRightsRow _ s _ ready (withPort_of_high _ high)
  · exact request_refused_answering p lockRightsRow _ s _ ready (withPort_of_high _ high)
  · exact request_refused_answering p setRightsRow _ s _ ready
      (by simp [serveSetRights_of_named named, Nat.not_lt.2 high])
  · exact request_refused_answering p setRightsRow _ s _ ready (by simp [serveSetRights_of_named named, low, locked])
  · have next := exec_setRights_of_unlocked ready named low unlocked (legal_eq _ _)
    rwa [rightsEndLapse_taken s p q 0x60 .ok []] at next
  · exact request_refused_answering p setRoutingRow _ s _ ready (withPort_of_high _ high)
  · refine ⟨_, exec_setNoticeMask_of_ready ready, ?_, ?_, fun q other => ?_, ?_⟩
    · simp [NoticeRecord.reevaluate, State.answering]
    · simp [NoticeRecord.sound_reevaluate]
    · simp [Quad.at_adjust, other, State.answering]
    · exact (does_onNotice _ p _ fun _ _ => NoticeRecord.sound_reevaluate _).keeps
  · exact request_refused_answering p setAutoAckRow _ s _ ready (serveSetAutoAck_of_high high)

end Sys2Proof.Machine
end

section
/-! The requests that take notices: POLL NOTICE and ACK NOTICE (R200, R201). -/

namespace Sys2Proof.Machine

/-! ### The highest-priority class of a kind -/

theorem mem_noticeClasses (c : NoticeClass) : c ∈ noticeClasses := by cases c <;> decide

theorem NoticeClass.priority_lt_eight (c : NoticeClass) : c.priority < 8 := by cases c <;> decide

/-- The classes stand in the order of Table 11-1, so the first that passes a test is the highest that does. -/
theorem find?_noticeClasses_of_highest {test : NoticeClass → Bool} {c : NoticeClass} (passes : test c = true)
    (highest : ∀ d, test d = true → c.priority ≤ d.priority) : noticeClasses.find? test = some c := by
  have ordered : noticeClasses.Pairwise fun a b => a.priority < b.priority := by decide
  obtain ⟨e, found⟩ := Option.isSome_iff_exists.1 (List.find?_isSome.2 ⟨c, mem_noticeClasses c, passes⟩)
  obtain ⟨holds, before, after, split, fails⟩ := List.find?_eq_some_iff_append.1 found
  have placed : c ∈ before ++ e :: after := split ▸ mem_noticeClasses c
  rw [split, List.pairwise_append, List.pairwise_cons] at ordered
  obtain ⟨-, ⟨below, -⟩, -⟩ := ordered
  rcases List.mem_append.1 placed with early | late
  · exact absurd passes (by simpa using fails c early)
  · rcases List.mem_cons.1 late with rfl | later
    · exact found
    · exact absurd (below c later) (Nat.not_lt.2 (highest e holds))

theorem find?_noticeClasses_eq_none {test : NoticeClass → Bool} (fails : ∀ c, test c = false) :
    noticeClasses.find? test = none :=
  List.find?_eq_none.2 fun c _ => by simp [fails c]

@[simp] theorem NoticeClass.ofCode_priority (c : NoticeClass) : NoticeClass.ofCode c.priority = some c := by
  cases c <;> rfl

theorem NoticeClass.ofCode_of_high {n : Nat} (h : 8 ≤ n) : NoticeClass.ofCode n = none :=
  find?_noticeClasses_eq_none fun c => beq_false_of_ne (Nat.ne_of_lt (c.priority_lt_eight.trans_le h))

/-- What it is to qualify, in the terms of R199 and R200. -/
theorem qualifies_iff (r : NoticeRecord) (c : NoticeClass) :
    qualifies r c = true ↔ setHas r.pending c = true ∧ setHas r.mask c = false
      ∧ ∀ d, setHas r.taken d = true → c.priority < d.priority := by
  simp [qualifies, and_assoc, mem_noticeClasses, Decidable.imp_iff_not_or]

@[simp] theorem setHas_zero (c : NoticeClass) : setHas 0 c = false := by simp [setHas]

@[simp] theorem taken_notices (s : State) (p : Port) : (s.taken p).notices = s.notices :=
  (does_taken s p).keeps.notices rfl

@[simp] theorem answering_notices (s : State) (p : Port) (code : Byte) (status : Status) (data : List Byte) :
    (s.answering p code status data).notices = s.notices := rfl

/-! ### POLL NOTICE -/

theorem NoticeRecord.polled_pending (r : NoticeRecord) (c d : NoticeClass) :
    setHas (r.polled c).pending d = (setHas r.pending d && d != c) :=
  setHas_setDrop r.pending c d

theorem NoticeRecord.polled_taken (r : NoticeRecord) (c d : NoticeClass) :
    setHas (r.polled c).taken d = (setHas r.taken d || (d == c && !r.autoAck)) := by
  by_cases auto : r.autoAck = true <;> simp [NoticeRecord.polled, NoticeRecord.reevaluate, auto, setHas_setAdd]

/-- The routing set, the mask, the flag and the base line are no part of what a poll changes. -/
theorem NoticeRecord.polled_frame (r : NoticeRecord) (c : NoticeClass) :
    r.polled c = { r with pending := (r.polled c).pending, taken := (r.polled c).taken, line := (r.polled c).line } :=
  rfl

theorem NoticeRecord.sound_polled (r : NoticeRecord) (c : NoticeClass) : (r.polled c).sound = true :=
  NoticeRecord.sound_reevaluate _

theorem exec_pollNotice (p : Port) (s : State) :
    exec (.pollNotice p) s = request p pollNoticeRow (servePollNotice p) s := rfl

section
variable {p : Port} {s : State} {c : NoticeClass}

theorem servePollNotice_of_none (h : topQualifying (s.notices.at p) = none) :
    servePollNotice p s = answers s [8#8] := by
  simp [servePollNotice, h, noticeField, u8]

theorem servePollNotice_of_some (h : topQualifying (s.notices.at p) = some c) :
    servePollNotice p s =
      .served (s.onNotice p (NoticeRecord.polled c)) fun _ => [BitVec.ofNat 8 c.priority] := by
  simp [servePollNotice, h, noticeField, u8]

/-- With no qualifying class POLL NOTICE answers NONE and changes nothing (R200). -/
theorem exec_pollNotice_of_none (ready : s.ready p .read) (h : topQualifying (s.notices.at p) = none) :
    exec (.pollNotice p) s = .next (s.answering p 0x70 .ok [8#8]) := by
  rw [exec_pollNotice, ← taken_send]
  exact request_answers p pollNoticeRow _ s _ ready (servePollNotice_of_none (by simpa using h))

/-- With a highest qualifying class POLL NOTICE answers it, and the port's record is polled of it (R200). -/
theorem exec_pollNotice_of_some (ready : s.ready p .read) (h : topQualifying (s.notices.at p) = some c) :
    exec (.pollNotice p) s =
      .next ((s.answering p 0x70 .ok [BitVec.ofNat 8 c.priority]).onNotice p (NoticeRecord.polled c)) := by
  rw [exec_pollNotice]
  exact request_onNotice pollNoticeRow _ _ ready (servePollNotice_of_some (by simpa using h)) rfl

end

/-! ### ACK NOTICE -/

theorem NoticeRecord.acknowledged_taken (r : NoticeRecord) (c d : NoticeClass) :
    setHas (r.acknowledged c).taken d = (setHas r.taken d && d != c) :=
  setHas_setDrop r.taken c d

/-- The pending set, with the settings of the port, is no part of what an acknowledgement changes. -/
theorem NoticeRecord.acknowledged_frame (r : NoticeRecord) (c : NoticeClass) :
    r.acknowledged c = { r with taken := (r.acknowledged c).taken, line := (r.acknowledged c).line } := rfl

theorem NoticeRecord.sound_acknowledged (r : NoticeRecord) (c : NoticeClass) : (r.acknowledged c).sound = true :=
  NoticeRecord.sound_reevaluate _

theorem exec_ackNotice (p : Port) (cls : Option Byte) (s : State) :
    exec (.ackNotice p cls) s = request p ackNoticeRow (serveAckNotice p cls) s := rfl

section
variable {p : Port} {s : State} {b : Byte} {c : NoticeClass}

theorem serveAckNotice_none :
    serveAckNotice p none s = .served (s.acknowledge p (topOf (s.notices.at p).taken)) (State.takenData p) := rfl

theorem serveAckNotice_of_named (named : b.toNat = c.priority) :
    serveAckNotice p (some b) s = .served (s.acknowledge p (some c)) (State.takenData p) := by
  simp [serveAckNotice, named]

theorem serveAckNotice_of_high (h : 8 ≤ b.toNat) : serveAckNotice p (some b) s = .refused .outOfRange := by
  simp [serveAckNotice, NoticeClass.ofCode_of_high h]

/-- ACK NOTICE that finds a class to acknowledge takes it from the port's taken set and answers with that set (R201). -/
theorem exec_ackNotice_of_served {cls : Option Byte} (ready : s.ready p .read)
    (served : serveAckNotice p cls (s.taken p) = .served ((s.taken p).acknowledge p (some c)) (State.takenData p)) :
    exec (.ackNotice p cls) s =
      .next ((s.answering p 0x71 .ok [((s.notices.at p).acknowledged c).taken]).onNotice p
        (NoticeRecord.acknowledged c)) := by
  rw [exec_ackNotice]
  exact request_onNotice ackNoticeRow _ _ ready served (by simp [State.takenData])

/-- ACK NOTICE with no class and nothing taken changes nothing and answers with the empty set (R201). -/
theorem exec_ackNotice_of_none_taken (ready : s.ready p .read) (empty : (s.notices.at p).taken = 0) :
    exec (.ackNotice p none) s = .next (s.answering p 0x71 .ok [0#8]) := by
  have top : topOf (s.notices.at p).taken = none := find?_noticeClasses_eq_none fun c => by rw [empty, setHas_zero]
  have served : serveAckNotice p none (s.taken p) = .served (s.taken p) (State.takenData p) := by
    rw [serveAckNotice_none, taken_notices, top, State.acknowledge]
  rw [exec_ackNotice]
  exact request_served_beside p ackNoticeRow _ s id ready served rfl rfl (by simp [State.takenData, empty])

end

/-- Settles O50: the class that the statement names is the model's top of the qualifying or the taken classes, and the
request leaves the one change of the port's record beside the reply. -/
theorem pollAndAckNotices : Obligations.PollAndAckNotices := by
  unfold Obligations.PollAndAckNotices
  constructor
  · intro p s ready r able
    refine ⟨fun unable => ?_, fun c enabled highest => ?_⟩
    · exact exec_pollNotice_of_none ready
        (find?_noticeClasses_eq_none fun c => Bool.eq_false_iff.2 fun q => unable c ((qualifies_iff r c).1 q))
    · have top : topQualifying r = some c := find?_noticeClasses_of_highest ((qualifies_iff r c).2 enabled)
        fun d q => highest d ((qualifies_iff r d).1 q)
      refine ⟨_, exec_pollNotice_of_some ready top, ?_⟩
      simp only [State.onNotice_notices, answering_notices, Quad.at_adjust_same]
      exact ⟨r.polled_pending c, r.polled_taken c, r.sound_polled c, r.polled_frame c,
        fun q other => by simp [Quad.at_adjust, other],
        (does_onNotice _ p _ fun _ _ => NoticeRecord.sound_polled _ c).keeps⟩
  · intro p s ready r acked
    have left (c : NoticeClass) : acked c ((s.answering p 0x71 .ok [(r.acknowledged c).taken]).onNotice p
        (NoticeRecord.acknowledged c)) := by
      simp only [acked, State.onNotice_notices, answering_notices, Quad.at_adjust_same]
      exact ⟨r.acknowledged_taken c, r.acknowledged_frame c, r.sound_acknowledged c,
        fun q other => by simp [Quad.at_adjust, other],
        (does_onNotice _ p _ fun _ _ => NoticeRecord.sound_acknowledged _ c).keeps⟩
    refine ⟨fun b c named => ?_, fun c held highest => ?_, exec_ackNotice_of_none_taken ready, fun b high => ?_⟩
    · exact ⟨_, exec_ackNotice_of_served ready (serveAckNotice_of_named named), left c⟩
    · have top : topOf r.taken = some c := find?_noticeClasses_of_highest held highest
      refine ⟨_, exec_ackNotice_of_served ready ?_, left c⟩
      rw [serveAckNotice_none, taken_notices, top]
    · exact request_refused_answering p ackNoticeRow _ s _ ready (serveAckNotice_of_high high)

end Sys2Proof.Machine
end
